-- ==== Sys2Proof/Word.lean ====
section
/-! DEFINITION. The words of the ports: 64-bit command words, 32-bit response words, and the bytes of a
byte-wide link (10_state.md R46, 20_memory.md R64). Bit 0 is the least significant bit (00_scope.md R16). -/

namespace Sys2Proof

/-- A command word (10_state.md R46, 30_encoding.md R80). -/
abbrev CommandWord := BitVec 64

/-- A response word, and the width of every register read through GETSTAT (30_encoding.md R87). -/
abbrev Word := BitVec 32

/-- One byte of a byte-wide link, and the width of the fields OP, V and I (20_memory.md R64). -/
abbrev Byte := BitVec 8

end Sys2Proof
end

