-- ==== Sys2Proof/Syntax.lean ====
section
/-! DEFINITION. The commands of DOE-CMD v1, one constructor per row of spec/opcode_table.json (30_encoding.md R83).
An operand is the field of the command word that carries it (R80, R81). -/

namespace Sys2Proof

inductive Instr where
  /-- R210. -/
  | nop
  /-- R212: voice `v`, parameter id `p`, value `val` (two's complement raw). -/
  | setp (v p : Byte) (val : Word)
  /-- R215: voice `v`, step index `i`, new cell value `b`. -/
  | sets (v i : Byte) (b : Bool)
  /-- R128: tempo in mBPM (two's complement raw). -/
  | sett (val : Word)
  /-- R122. -/
  | start
  /-- R125. -/
  | stop
  /-- R223: note duration in us (two's complement raw). -/
  | setd (val : Word)
  /-- R225: configuration bits. -/
  | setcfg (c : Word)
  /-- R218: voice `v`, parameter id `p`. -/
  | getp (v p : Byte)
  /-- R220: voice `v`, step index `i`. -/
  | gets (v i : Byte)
  /-- R227: status index `i`. -/
  | getstat (i : Byte)
  /-- R229. -/
  | clrdiag
  deriving DecidableEq, Repr

/-- The `OP` field of a command (30_encoding.md R83). -/
def Instr.opcode : Instr → Byte
  | .nop        => 0x00
  | .setp _ _ _ => 0x01
  | .sets _ _ _ => 0x02
  | .sett _     => 0x03
  | .start      => 0x04
  | .stop       => 0x05
  | .setd _     => 0x06
  | .setcfg _   => 0x07
  | .getp _ _   => 0x08
  | .gets _ _   => 0x09
  | .getstat _  => 0x0A
  | .clrdiag    => 0x0B

end Sys2Proof
end

