-- ==== Sys2Proof/WellFormed.lean ====
section
/-! DEFINITION. Which commands are the meaning of some command word. Every operand field but one holds any value of
its width; the reserved bits 31:2 of SETCFG's operand are zero (30_encoding.md R81, 46_control_commands.md R226).
That a voice, parameter, step or status index EXISTS is no condition here: a word that names a missing one is
well-formed and raises BAD_ADDR when it executes (30_encoding.md R85). -/

namespace Sys2Proof

/-- Some command word stands for this command. -/
def Instr.wellFormed : Instr → Bool
  | .setcfg c   => c.extractLsb' 2 30 == 0
  | .nop        => true
  | .setp _ _ _ => true
  | .sets _ _ _ => true
  | .sett _     => true
  | .start      => true
  | .stop       => true
  | .setd _     => true
  | .getp _ _   => true
  | .gets _ _   => true
  | .getstat _  => true
  | .clrdiag    => true

/-- `Instr.wellFormed` as a proposition. -/
abbrev Instr.WellFormed (i : Instr) : Prop := i.wellFormed = true

end Sys2Proof
end

