-- ==== Sys2Proof/Decode.lean ====
section
/-! DEFINITION. Decoding a command word, total, rejecting by name, and after it the encoder, both written from
30_encoding.md R80 to R84 and spec/opcode_table.json. -/

namespace Sys2Proof

/-- Why a word, or a byte string of the byte-wide link, is no command (30_encoding.md R84, 20_memory.md R66). -/
inductive DecodeError where
  /-- `OP` is in 0x0C .. 0xFF (R84, R86). -/
  | unassignedOpcode (op : Byte)
  /-- A field the opcode marks "0" is not zero (R81, R84). -/
  | nonzeroField (op : Byte)
  /-- Fewer than eight bytes of the word have arrived (20_memory.md R66). -/
  | partialWord
  deriving DecidableEq, Repr

/-- The `OP` field, bits 63:56 (R80). -/
def fieldOp (w : CommandWord) : Byte := w.extractLsb' 56 8
/-- The `V` field, bits 55:48 (R80). -/
def fieldV (w : CommandWord) : Byte := w.extractLsb' 48 8
/-- The `I` field, bits 47:40 (R80). -/
def fieldI (w : CommandWord) : Byte := w.extractLsb' 40 8
/-- The `B` bit, bit 32 (R80). -/
def fieldB (w : CommandWord) : Bool := w.getLsbD 32
/-- The `VAL` field, bits 31:0 (R80). -/
def fieldVal (w : CommandWord) : Word := w.extractLsb' 0 32

/-- `ZERO_MASK[op]`: the fields R81 marks "0" (R85; SETCFG's with VAL[31:2], 46_control_commands.md R226). -/
def zeroMask (op : Byte) : CommandWord :=
  match op.toNat with
  | 0x00 => 0x00FFFFFFFFFFFFFF
  | 0x01 => 0x000000FF00000000
  | 0x02 => 0x000000FEFFFFFFFF
  | 0x03 => 0x00FFFFFF00000000
  | 0x04 => 0x00FFFFFFFFFFFFFF
  | 0x05 => 0x00FFFFFFFFFFFFFF
  | 0x06 => 0x00FFFFFF00000000
  | 0x07 => 0x00FFFFFFFFFFFFFC
  | 0x08 => 0x000000FFFFFFFFFF
  | 0x09 => 0x000000FFFFFFFFFF
  | 0x0A => 0x00FF00FFFFFFFFFF
  | 0x0B => 0x00FFFFFFFFFFFFFF
  | _    => 0

/-- The second check of R85: `i`, unless a zero-field of the word is not zero. -/
def checkZeroFields (w : CommandWord) (i : Instr) : Except DecodeError Instr :=
  if w &&& zeroMask (fieldOp w) = 0 then .ok i else .error (.nonzeroField (fieldOp w))

/-- The command a word stands for, or why it is malformed: R85's first two checks, in its order. -/
def decode (w : CommandWord) : Except DecodeError Instr :=
  match (fieldOp w).toNat with
  | 0x00 => checkZeroFields w .nop
  | 0x01 => checkZeroFields w (.setp (fieldV w) (fieldI w) (fieldVal w))
  | 0x02 => checkZeroFields w (.sets (fieldV w) (fieldI w) (fieldB w))
  | 0x03 => checkZeroFields w (.sett (fieldVal w))
  | 0x04 => checkZeroFields w .start
  | 0x05 => checkZeroFields w .stop
  | 0x06 => checkZeroFields w (.setd (fieldVal w))
  | 0x07 => checkZeroFields w (.setcfg (fieldVal w))
  | 0x08 => checkZeroFields w (.getp (fieldV w) (fieldI w))
  | 0x09 => checkZeroFields w (.gets (fieldV w) (fieldI w))
  | 0x0A => checkZeroFields w (.getstat (fieldI w))
  | 0x0B => checkZeroFields w .clrdiag
  | _    => .error (.unassignedOpcode (fieldOp w))

/-- The word whose bytes, least significant first, are the eight given (20_memory.md R64). -/
def wordOfBytes (b0 b1 b2 b3 b4 b5 b6 b7 : Byte) : CommandWord :=
  b7 ++ b6 ++ b5 ++ b4 ++ b3 ++ b2 ++ b1 ++ b0

/-- Decoding on a byte-wide link: the first eight bytes are the word, the rest is returned (20_memory.md R66). -/
def decodeBytes : List Byte → Except DecodeError (Instr × List Byte)
  | b0 :: b1 :: b2 :: b3 :: b4 :: b5 :: b6 :: b7 :: rest =>
    match decode (wordOfBytes b0 b1 b2 b3 b4 b5 b6 b7) with
    | .ok i    => .ok (i, rest)
    | .error e => .error e
  | _ => .error .partialWord

/-- The word with the given fields and `RSV` = 0 (30_encoding.md R80). -/
def assemble (op v i : Byte) (b : Bool) (val : Word) : CommandWord :=
  op ++ v ++ i ++ (0 : BitVec 7) ++ BitVec.ofBool b ++ val

/-- The word of a command (R81). On a term that is not well-formed, the word `decode` rejects. -/
def encode (c : Instr) : CommandWord :=
  match c with
  | .nop        => assemble c.opcode 0 0 false 0
  | .setp v p x => assemble c.opcode v p false x
  | .sets v i b => assemble c.opcode v i b 0
  | .sett x     => assemble c.opcode 0 0 false x
  | .start      => assemble c.opcode 0 0 false 0
  | .stop       => assemble c.opcode 0 0 false 0
  | .setd x     => assemble c.opcode 0 0 false x
  | .setcfg x   => assemble c.opcode 0 0 false x
  | .getp v p   => assemble c.opcode v p false 0
  | .gets v i   => assemble c.opcode v i false 0
  | .getstat i  => assemble c.opcode 0 i false 0
  | .clrdiag    => assemble c.opcode 0 0 false 0

/-- The eight bytes of a word, least significant first (20_memory.md R64). -/
def bytesOfCommand (w : CommandWord) : List Byte :=
  (List.range 8).map fun k => w.extractLsb' (8 * k) 8

/-- The four bytes of a response word, least significant first (20_memory.md R64). -/
def bytesOfResponse (w : Word) : List Byte :=
  (List.range 4).map fun k => w.extractLsb' (8 * k) 8

/-- One row of spec/opcode_table.json: a word is the row's when its masked bits are the row's. -/
structure OpcodeRow where
  mnemonic : String
  bits     : CommandWord
  mask     : CommandWord
  deriving DecidableEq, Repr

/-- spec/opcode_table.json's match and mask of every row. -/
def opcodeTable : List OpcodeRow :=
  [ ⟨"NOP",     0x0000000000000000, 0xFFFFFFFFFFFFFFFF⟩,
    ⟨"SETP",    0x0100000000000000, 0xFF0000FF00000000⟩,
    ⟨"SETS",    0x0200000000000000, 0xFF0000FEFFFFFFFF⟩,
    ⟨"SETT",    0x0300000000000000, 0xFFFFFFFF00000000⟩,
    ⟨"START",   0x0400000000000000, 0xFFFFFFFFFFFFFFFF⟩,
    ⟨"STOP",    0x0500000000000000, 0xFFFFFFFFFFFFFFFF⟩,
    ⟨"SETD",    0x0600000000000000, 0xFFFFFFFF00000000⟩,
    ⟨"SETCFG",  0x0700000000000000, 0xFFFFFFFFFFFFFFFC⟩,
    ⟨"GETP",    0x0800000000000000, 0xFF0000FFFFFFFFFF⟩,
    ⟨"GETS",    0x0900000000000000, 0xFF0000FFFFFFFFFF⟩,
    ⟨"GETSTAT", 0x0A00000000000000, 0xFFFF00FFFFFFFFFF⟩,
    ⟨"CLRDIAG", 0x0B00000000000000, 0xFFFFFFFFFFFFFFFF⟩ ]

/-- The word is one of the row's. -/
def OpcodeRow.matchesWord (r : OpcodeRow) (w : CommandWord) : Bool := w &&& r.mask == r.bits

/-- The command the decoder reads from a table word: bit 0 of `w` is bit 0 of the command word (00_scope.md R16),
which is also bit 0 of the first byte on a byte-wide link (20_memory.md R64). -/
def decodeTableWord (nbits w : Nat) : Option Instr :=
  match decode (BitVec.ofNat 64 (w % 2 ^ nbits)) with
  | .ok i    => some i
  | .error _ => none

end Sys2Proof
end

