-- ==== Sys2Proof/Config.lean ====
section
/-! DEFINITION. The implementation parameters (00_scope.md R6 to R14) and two of the free values: what the spec leaves
open and the machine goes on after. A free value is an opaque constant: no statement can rest on what it is. (The free
values of a render, whose arguments are a snapshot's, stand in Machine/FreeValues.lean.) -/

namespace Sys2Proof

/-- `STEP_COUNT`, fixed by the source (00_scope.md R6). -/
def stepCount : Nat := 32

/-- The thirteen scalar fields of a voice's parameter record, each the integer `raw` of its unit
(10_state.md R26, 00_scope.md R17). Every legal raw is non-negative (log entry 16). -/
structure VoiceScalars where
  osc1Freq   : Nat
  osc2Freq   : Nat
  volume     : Nat
  gain       : Nat
  attack     : Nat
  decay      : Nat
  release    : Nat
  sustain    : Nat
  distortion : Nat
  leftGain   : Nat
  rightGain  : Nat
  loopLength : Nat
  mute       : Nat
  deriving DecidableEq, Repr

/-- The default of `VOICE_RESET`: the table of 10_state.md R27, less the EQ gains. -/
def VoiceScalars.default : VoiceScalars where
  osc1Freq   := 440000
  osc2Freq   := 440000
  volume     := 1000000
  gain       := 1000000
  attack     := 10000
  decay      := 100000
  release    := 100000
  sustain    := 700000
  distortion := 0
  leftGain   := 1000000
  rightGain  := 1000000
  loopLength := 32
  mute       := 0

/-- A number format of the signal path (00_scope.md R12; log entry 26). -/
inductive NumberFormat where
  /-- An IEEE 754 binary format: significand bits, the hidden one counted, and the greatest exponent. -/
  | binary (precision maxExponent : Nat)
  /-- Two's complement fixed point. -/
  | fixedPoint (integerBits fractionBits : Nat)
  /-- The exact values of the reference semantics. -/
  | exact
  /-- Any other format, by a number of its own. -/
  | other (tag : Nat)
  deriving DecidableEq, Repr

/-- How an arithmetic rounds (00_scope.md R12; log entry 26). -/
inductive Rounding where
  | nearestEven | nearestAway | towardZero | towardPositive | towardNegative
  deriving DecidableEq, Repr

/-- `NUMERICS`: the arithmetic of the signal path and the tolerance `TOL` it guarantees, relative (00_scope.md R12,
93_implementation_defined.md item 6). What an arithmetic may do within `TOL` are the free values of a render, and the
arithmetic is an argument of theirs (log entries 10 and 26). -/
structure Numerics where
  format   : NumberFormat
  rounding : Rounding
  /-- The numerator of `TOL`. -/
  tolNum   : Nat
  /-- The denominator of `TOL`. -/
  tolDen   : Nat
  deriving DecidableEq, Repr

/-- The default: binary64, round to nearest even, `TOL` = 1e-6 (00_scope.md R12). -/
def Numerics.default : Numerics where
  format   := .binary 53 1023
  rounding := .nearestEven
  tolNum   := 1
  tolDen   := 1000000

/-- The implementation parameters. A machine's parameters stand in its state and no step changes them (log entry 2). -/
structure Config where
  /-- `NUM_VOICES` (R7). -/
  numVoices     : Nat
  /-- `SAMPLE_RATE`, samples per second (R8). -/
  sampleRate    : Nat
  /-- `EQ_BANDS` (R9). -/
  eqBands       : Nat
  /-- `EQ_DEFAULT_GAIN` in micro-units (R10). -/
  eqDefaultGain : Nat
  /-- `EQ_GAIN_MAX` in micro-units (R11). -/
  eqGainMax     : Nat
  /-- `NUMERICS` (R12). -/
  numerics      : Numerics
  /-- `RENDER_MAY_FAIL` (R13). -/
  renderMayFail : Bool
  /-- `VOICE_RESET`, less the EQ gains, whose reset value is `EQ_DEFAULT_GAIN` (R14, 10_state.md R27). -/
  voiceReset    : VoiceScalars
  deriving DecidableEq, Repr

/-- The spec's default parameters (00_scope.md R7 to R14). -/
def Config.default : Config where
  numVoices     := 4
  sampleRate    := 44100
  eqBands       := 8
  eqDefaultGain := 1000000
  eqGainMax     := 4000000
  numerics      := Numerics.default
  renderMayFail := false
  voiceReset    := VoiceScalars.default

/-- FREE VALUE: which of several enabled agents steps next once `schedule` has run out, by draw index
(20_memory.md R68, 93_implementation_defined.md item 11; log entry 4). -/
opaque Config.agentChoice : Nat → Nat

/-- FREE VALUE: whether the render of a completion step failed, by draw index. Read only when `RENDER_MAY_FAIL`
(45_mixer_quantizer.md R203, 93_implementation_defined.md item 8; log entry 12). -/
opaque Config.renderFails : Nat → Bool

end Sys2Proof
end

