-- ==== Sys2Proof/Machine/State.lean ====
section
/-! DEFINITION. The state of the block (10_state.md), the reasons a step can stop, and the state after reset
(70_reset_and_hazards.md R270). The block has no program counter, no general registers, no condition codes and no
addressable memory (10_state.md R20 to R22, 20_memory.md R60). -/

namespace Sys2Proof.Machine

open Sys2Proof

/-- Why the block stops: it never does. No error traps, stops a tick or ends a run (60_exceptions.md R240, R252). -/
inductive Fault where
  deriving DecidableEq, Repr

/-- Why a command has no meaning. -/
inductive Refusal where
  /-- Raised by an arm of `exec` whose command has no meaning yet; safe. No arm of this model raises it. -/
  | notModelled (mnemonic : String)
  deriving DecidableEq, Repr

/-- `VP[v]`, the parameter record of one voice (10_state.md R23, R26). -/
structure VoiceParams extends VoiceScalars where
  /-- `eq_gain[k]`, k < EQ_BANDS, in micro-units (R26). -/
  eqGain : List Nat
  deriving DecidableEq, Repr

/-- `SNAP[v]`: the atomic copy a trigger takes (10_state.md R40, 40_transport_clock.md R118). -/
structure Snapshot where
  params : VoiceParams
  dur    : Nat
  config : Word
  epoch  : Word
  step   : BitVec 64
  deriving DecidableEq, Repr

/-- What the block holds for one voice. -/
structure Voice where
  /-- `VP[v]` (10_state.md R23). -/
  params : VoiceParams
  /-- `GRID[v][i]` (10_state.md R29). -/
  grid   : Vector Bool 32
  /-- `SNAP[v]`, which is held exactly while `BUSY[v] = 1` (10_state.md R39, R40; log entry 7). -/
  snap   : Option Snapshot
  /-- `OVR_CNT[v]` (10_state.md R42). -/
  ovrCnt : Word
  deriving DecidableEq, Repr

/-- What the block hands the sink: `{voice, step, level, pairs}`, each pair left sample first
(45_mixer_quantizer.md R198, R201; 20_memory.md R65). -/
structure SinkRecord where
  voice : Nat
  step  : BitVec 64
  /-- The level the sink applies (45_mixer_quantizer.md R192, R193): within TOL of a fraction in [0, 1], so above 1 by at
  most TOL (log entry 25). -/
  level : Rat
  pairs : List (Int × Int)
  deriving DecidableEq, Repr

/-- Whose step comes next: an agent's (20_memory.md R68) or the outside world's at a port (10_state.md R46). -/
inductive Turn where
  /-- The next word on the command port executes (R68 (a)). -/
  | command
  /-- The transport clock ticks (R68 (b)). -/
  | tick
  /-- The render unit of voice `v` completes (R68 (c)). -/
  | complete (v : Nat)
  /-- The host puts a word on the command port. -/
  | wordIn (w : CommandWord)
  /-- A byte arrives on the byte-wide link (20_memory.md R64, R66). -/
  | byteIn (b : Byte)
  /-- The host takes the oldest response. -/
  | responseOut
  /-- The sink takes the oldest delivered record. -/
  | recordOut
  /-- The sink drives SINK_READY (10_state.md R36). -/
  | sinkReady (level : Bool)
  /-- The reset input (70_reset_and_hazards.md R270). -/
  | reset
  deriving DecidableEq, Repr

/-- The whole state of the block, its ports, and the model's own two fields. -/
structure State where
  /-- The implementation parameters; no step changes them (00_scope.md R6 to R14; log entry 2). -/
  cfg          : Config
  /-- The voices 0 .. NUM_VOICES - 1 (10_state.md R25). -/
  voices       : List Voice
  /-- `REG.RUNNING` (R32). -/
  running      : Bool
  /-- `REG.TEMPO`, mBPM (R33). -/
  tempo        : Nat
  /-- `REG.GSTEP` (R34). -/
  gstep        : BitVec 64
  /-- `REG.DURATION`, us (R35). -/
  duration     : Nat
  /-- `REG.SINK_OK` (R36). -/
  sinkOk       : Bool
  /-- `REG.CONFIG` (R37). -/
  config       : Word
  /-- `REG.EPOCH` (R38). -/
  epoch        : Word
  /-- `REG.ERR` (R41). -/
  err          : Word
  /-- `REG.LAST_ERR` (R48). -/
  lastErr      : Word
  /-- `REG.FAULT_CNT` (R43). -/
  faultCnt     : Word
  /-- `REG.TRIG_CNT` (R44). -/
  trigCnt      : Word
  /-- `next_interval`: seconds from the last tick, or from an accepted START, to the tick now due
  (40_transport_clock.md R112, R113, R116). No step reads it (R111; log entry 8). -/
  nextInterval : Rat
  /-- The command port: words that have arrived and not executed, oldest first (R46). -/
  commandIn    : List CommandWord
  /-- The bytes of a partly received word of the byte-wide link, oldest first (20_memory.md R66). -/
  linkBytes    : List Byte
  /-- The response port: words not yet taken, oldest first (R46). -/
  responses    : List Word
  /-- The sink port: delivered records not yet taken, oldest first (R46). -/
  delivered    : List SinkRecord
  /-- The SINK_READY input (R36, R46). -/
  sinkReady    : Bool
  /-- THE MODEL'S OWN: the coming turns, oldest first (20_memory.md R68; log entry 4). -/
  schedule     : List Turn
  /-- THE MODEL'S OWN: the index of the next free value (log entry 4). -/
  draws        : Nat
  deriving DecidableEq, Repr

/-- A voice's parameters after reset (10_state.md R27). -/
def VoiceParams.reset (c : Config) : VoiceParams :=
  { c.voiceReset with eqGain := List.replicate c.eqBands c.eqDefaultGain }

/-- A voice after reset: default parameters, an empty grid, no snapshot, no overrun (70_reset_and_hazards.md R270). -/
def Voice.reset (c : Config) : Voice where
  params := VoiceParams.reset c
  grid   := Vector.replicate 32 false
  snap   := none
  ovrCnt := 0

/-- The state after reset for any parameters and any SINK_READY (70_reset_and_hazards.md R270, R272). -/
def State.resetWith (c : Config) (sinkReady : Bool) : State where
  cfg          := c
  voices       := List.replicate c.numVoices (Voice.reset c)
  running      := false
  tempo        := 120000
  gstep        := 0
  duration     := 500000
  sinkOk       := sinkReady
  config       := 0
  epoch        := 0
  err          := 0
  lastErr      := 0
  faultCnt     := 0
  trigCnt      := 0
  nextInterval := 0
  commandIn    := []
  linkBytes    := []
  responses    := []
  delivered    := []
  sinkReady    := sinkReady
  schedule     := []
  draws        := 0

/-- The machine right after reset: the default parameters, SINK_READY = 1 (log entry 3). -/
def State.reset : State := State.resetWith Config.default true

end Sys2Proof.Machine
end

