-- ==== Sys2Proof/Machine/Operands.lean ====
section
/-! DEFINITION. The operand forms: parameter ids and ranges, voice, step and status indices, clamping, and the
reading and writing of a parameter field, a grid cell and a status register (10_state.md R26 to R30, R45;
20_memory.md R61; 30_encoding.md R82, R88 to R91). -/

namespace Sys2Proof.Machine

open Sys2Proof

/-- A field of `VP[v]` (10_state.md R26). -/
inductive Param where
  | osc1Freq | osc2Freq | volume | gain | attack | decay | release | sustain | distortion
  | leftGain | rightGain | loopLength | mute
  | eqGain (k : Nat)
  deriving DecidableEq, Repr

/-- The parameter of an id, where the id is assigned (30_encoding.md R90). -/
def paramOfId (c : Config) (p : Byte) : Option Param :=
  match p.toNat with
  | 0x00 => some .osc1Freq
  | 0x01 => some .osc2Freq
  | 0x02 => some .volume
  | 0x03 => some .gain
  | 0x04 => some .attack
  | 0x05 => some .decay
  | 0x06 => some .release
  | 0x07 => some .sustain
  | 0x08 => some .distortion
  | 0x09 => some .leftGain
  | 0x0A => some .rightGain
  | 0x0B => some .loopLength
  | 0x0C => some .mute
  | n    => if 0x20 ≤ n ∧ n < 0x20 + c.eqBands then some (.eqGain (n - 0x20)) else none

/-- The id of a parameter (10_state.md R26). -/
def idOfParam : Param → Byte
  | .osc1Freq   => 0x00
  | .osc2Freq   => 0x01
  | .volume     => 0x02
  | .gain       => 0x03
  | .attack     => 0x04
  | .decay      => 0x05
  | .release    => 0x06
  | .sustain    => 0x07
  | .distortion => 0x08
  | .leftGain   => 0x09
  | .rightGain  => 0x0A
  | .loopLength => 0x0B
  | .mute       => 0x0C
  | .eqGain k   => BitVec.ofNat 8 (0x20 + k)

/-- The 8-bit field of an index, where it fits; no other word can name it (30_encoding.md R80). -/
def indexField (n : Nat) : Option Byte := if n < 256 then some (BitVec.ofNat 8 n) else none

/-- The id field of a parameter, where it fits. -/
def idField (f : Param) : Option Byte :=
  match f with
  | .eqGain k => indexField (0x20 + k)
  | f         => some (idOfParam f)

/-- The lower bound of a field's legal raw range (10_state.md R26). -/
def paramLo : Param → Nat
  | .attack | .decay | .release => 1000
  | .loopLength => 1
  | _ => 0

/-- The upper bound of a field's legal raw range (10_state.md R26). -/
def paramHi (c : Config) : Param → Nat
  | .osc1Freq | .osc2Freq => 880000
  | .attack | .decay | .release => 900000
  | .loopLength => stepCount
  | .mute => 1
  | .eqGain _ => c.eqGainMax
  | _ => 1000000

/-- The bounds of `REG.TEMPO` (10_state.md R33). -/
def tempoLo : Nat := 60000
def tempoHi : Nat := 240000

/-- The bounds of `REG.DURATION` (10_state.md R35). -/
def durationLo : Nat := 1000
def durationHi : Nat := 10000000

/-- `sext_32(VAL)` (30_encoding.md R82). -/
def rawOf (val : Word) : Int := val.toInt

/-- `clamp(raw, lo, hi)` over mathematical integers (00_scope.md R18, 46_control_commands.md R213). -/
def clampRaw (raw : Int) (lo hi : Nat) : Nat :=
  if raw < lo then lo else if hi < raw then hi else raw.toNat

/-- The clamp changed the value: exactly when CFG_CLAMP is raised (46_control_commands.md R213). -/
def clamped (raw : Int) (lo hi : Nat) : Bool := (clampRaw raw lo hi : Int) != raw

/-- `VP[v].field(p)`. -/
def getParam (f : Param) (r : VoiceParams) : Nat :=
  match f with
  | .osc1Freq   => r.osc1Freq
  | .osc2Freq   => r.osc2Freq
  | .volume     => r.volume
  | .gain       => r.gain
  | .attack     => r.attack
  | .decay      => r.decay
  | .release    => r.release
  | .sustain    => r.sustain
  | .distortion => r.distortion
  | .leftGain   => r.leftGain
  | .rightGain  => r.rightGain
  | .loopLength => r.loopLength
  | .mute       => r.mute
  | .eqGain k   => r.eqGain.getD k 0

/-- `VP[v].field(p) <- x`. -/
def setParam (f : Param) (x : Nat) (r : VoiceParams) : VoiceParams :=
  match f with
  | .osc1Freq   => { r with osc1Freq := x }
  | .osc2Freq   => { r with osc2Freq := x }
  | .volume     => { r with volume := x }
  | .gain       => { r with gain := x }
  | .attack     => { r with attack := x }
  | .decay      => { r with decay := x }
  | .release    => { r with release := x }
  | .sustain    => { r with sustain := x }
  | .distortion => { r with distortion := x }
  | .leftGain   => { r with leftGain := x }
  | .rightGain  => { r with rightGain := x }
  | .loopLength => { r with loopLength := x }
  | .mute       => { r with mute := x }
  | .eqGain k   => { r with eqGain := r.eqGain.set k x }

/-- `V < NUM_VOICES` (30_encoding.md R88). -/
def voiceExists (s : State) (v : Nat) : Bool := decide (v < s.cfg.numVoices)

/-- `i < STEP_COUNT` (30_encoding.md R89). -/
def stepExists (i : Nat) : Bool := decide (i < stepCount)

/-- Voice `v`; beyond the list, a voice as after reset (no state with the invariant reads it there, log entry 19). -/
def State.voice (s : State) (v : Nat) : Voice := s.voices.getD v (Voice.reset s.cfg)

/-- `VP[v]`. -/
def State.params (s : State) (v : Nat) : VoiceParams := (s.voice v).params

/-- `GRID[v][i]`. -/
def State.gridCell (s : State) (v i : Nat) : Bool := ((s.voice v).grid[i]?).getD false

/-- `BUSY[v]`: a snapshot is held (10_state.md R39, R40; log entry 7). -/
def State.busy (s : State) (v : Nat) : Bool := (s.voice v).snap.isSome

/-- The number whose bit `k` is the k-th of the list. -/
def natOfBits : List Bool → Nat
  | []      => 0
  | b :: bs => b.toNat + 2 * natOfBits bs

/-- Status register BUSY: bit v is `BUSY[v]`, other bits zero (10_state.md R45). -/
def busyWord (s : State) : Word :=
  BitVec.ofNat 32 (natOfBits ((List.range s.cfg.numVoices).map s.busy))

/-- Status register STATUS (10_state.md R45). -/
def statusWord (s : State) : Word :=
  (0 : BitVec 30) ++ BitVec.ofBool s.sinkOk ++ BitVec.ofBool s.running

/-- Status register CAPS: interface version 1, STEP_COUNT, EQ_BANDS, NUM_VOICES (10_state.md R45). -/
def capsWord (c : Config) : Word :=
  (0x01 : Byte) ++ BitVec.ofNat 8 stepCount ++ BitVec.ofNat 8 c.eqBands ++ BitVec.ofNat 8 c.numVoices

/-- The status register of an index, where the index is listed (10_state.md R45). -/
def readStatus (s : State) (i : Byte) : Option Word :=
  match i.toNat with
  | 0x00 => some (statusWord s)
  | 0x01 => some s.err
  | 0x02 => some (BitVec.ofNat 32 s.tempo)
  | 0x03 => some (BitVec.ofNat 32 s.duration)
  | 0x04 => some s.config
  | 0x05 => some (s.gstep.extractLsb' 0 32)
  | 0x06 => some (s.gstep.extractLsb' 32 32)
  | 0x07 => some (busyWord s)
  | 0x08 => some (capsWord s.cfg)
  | 0x09 => some (BitVec.ofNat 32 s.cfg.sampleRate)
  | 0x0A => some s.faultCnt
  | 0x0B => some s.trigCnt
  | 0x0C => some (BitVec.ofNat 32 s.cfg.eqGainMax)
  | 0x0D => some (BitVec.ofNat 32 s.cfg.eqDefaultGain)
  | 0x0E => some s.lastErr
  | n    => if 0x10 ≤ n ∧ n < 0x10 + s.cfg.numVoices then some (s.voice (n - 0x10)).ovrCnt else none

end Sys2Proof.Machine
end

