-- ==== Sys2Proof/Machine/Flags.lean ====
section
/-! DEFINITION. The error codes, the bits of ERR, the fields of LAST_ERR, the counters' arithmetic and the bits of
CONFIG (60_exceptions.md R241, R242; 10_state.md R37, R41 to R44, R48). -/

namespace Sys2Proof.Machine

open Sys2Proof

/-- The six recorded errors (60_exceptions.md R242). -/
inductive ErrCode where
  | cfgClamp | badCmd | badAddr | devUnavail | overrun | renderFault
  deriving DecidableEq, Repr

/-- The bit of `REG.ERR` (R242). -/
def ErrCode.bit : ErrCode → Nat
  | .cfgClamp    => 0
  | .badCmd      => 1
  | .badAddr     => 2
  | .devUnavail  => 3
  | .overrun     => 4
  | .renderFault => 5

/-- The code number in `REG.LAST_ERR` (R242). -/
def ErrCode.number : ErrCode → Byte
  | .cfgClamp    => 1
  | .badCmd      => 2
  | .badAddr     => 3
  | .devUnavail  => 4
  | .overrun     => 5
  | .renderFault => 6

/-- `REG.ERR` with the code's sticky flag set (R241). -/
def setErrFlag (c : ErrCode) (err : Word) : Word := err ||| BitVec.twoPow 32 c.bit

/-- `REG.LAST_ERR`: detail 31:16, voice 15:8, code number 7:0 (10_state.md R48). -/
def lastErrWord (c : ErrCode) (voice : Byte) (detail : BitVec 16) : Word := detail ++ voice ++ c.number

/-- The voice recorded when none is concerned (10_state.md R48). -/
def noVoice : Byte := 0xFF

/-- The detail of a command error, `{OP, I}` (60_exceptions.md R243). -/
def commandDetail (op i : Byte) : BitVec 16 := op ++ i

/-- The detail of a tick or completion error: bits 15:0 of the trigger's global step (60_exceptions.md R247, R248). -/
def stepDetail (g : BitVec 64) : BitVec 16 := g.extractLsb' 0 16

/-- A saturating 32-bit counter's next value (10_state.md R42, R43). -/
def saturatingSucc (n : Word) : Word := if n = BitVec.allOnes 32 then n else n + 1

/-- `CONFIG.ENV_SQUARED` (10_state.md R37). -/
def envSquared (config : Word) : Bool := config.getLsbD 0

/-- `CONFIG.DB_IN_MIXER` (10_state.md R37). -/
def dbInMixer (config : Word) : Bool := config.getLsbD 1

/-- The reserved bits 31:2 of a configuration word are zero (10_state.md R37, 46_control_commands.md R225). -/
def configReservedZero (c : Word) : Bool := c.extractLsb' 2 30 == 0

end Sys2Proof.Machine
end

