-- ==== Sys2Proof/Machine/Ops.lean ====
section
/-! DEFINITION. The named operations over the state: recording an error (the block's one error entry: it never traps,
60_exceptions.md R240, R252), responding, changing a voice, rejecting a command, the ports, and the reset step. -/

namespace Sys2Proof.Machine

open Sys2Proof

/-- `raise Err(code, info)` (60_exceptions.md R241): the sticky flag and `LAST_ERR`, nothing else. There is no return
from it (R253): CLRDIAG and reset clear what it records. -/
def raiseErr (c : ErrCode) (voice : Byte) (detail : BitVec 16) (s : State) : State :=
  { s with err := setErrFlag c s.err, lastErr := lastErrWord c voice detail }

/-- `respond(w)` (30_encoding.md R87, 20_memory.md R73). -/
def respond (w : Word) (s : State) : State := { s with responses := s.responses ++ [w] }

/-- Voice `v` replaced by `f` of it, every other voice unchanged. -/
def updateVoice (v : Nat) (f : Voice → Voice) (s : State) : State := { s with voices := s.voices.modify v f }

/-- `VP[v].field(p) <- x`. -/
def writeParam (v : Nat) (f : Param) (x : Nat) (s : State) : State :=
  updateVoice v (fun c => { c with params := setParam f x c.params }) s

/-- `GRID[v][i] <- b`. -/
def writeCell (v i : Nat) (b : Bool) (s : State) : State :=
  updateVoice v (fun c => { c with grid := c.grid.setIfInBounds i b }) s

/-- `SNAP[v]` set or dropped, and with it `BUSY[v]` (10_state.md R39, R40). -/
def writeSnap (v : Nat) (o : Option Snapshot) (s : State) : State :=
  updateVoice v (fun c => { c with snap := o }) s

/-- `OVR_CNT[v] <- min(OVR_CNT[v] + 1, 2^32 - 1)` (40_transport_clock.md R117). -/
def countOverrun (v : Nat) (s : State) : State :=
  updateVoice v (fun c => { c with ovrCnt := saturatingSucc c.ovrCnt }) s

/-- CFG_CLAMP when the value was clamped, before the clamped value is stored (46_control_commands.md R213,
60_exceptions.md R243). -/
def reportClamp (raw : Int) (lo hi : Nat) (op i voice : Byte) (s : State) : State :=
  if clamped raw lo hi then raiseErr .cfgClamp voice (commandDetail op i) s else s

/-- The GET-class opcodes (30_encoding.md R84). -/
def isGetOp (op : Byte) : Bool := op == 0x08 || op == 0x09 || op == 0x0A

/-- The response 0 of a rejected GET-class command; none for any other (30_encoding.md R87). -/
def respondZeroIfGet (op : Byte) (s : State) : State := if isGetOp op then respond 0 s else s

/-- A malformed word: BAD_CMD, voice 0xFF, detail `{OP, I}` of the word as received (30_encoding.md R84, R85;
60_exceptions.md R244). -/
def rejectWord (w : CommandWord) (s : State) : State :=
  respondZeroIfGet (fieldOp w) (raiseErr .badCmd noVoice (commandDetail (fieldOp w) (fieldI w)) s)

/-- A well-formed command that names what does not exist: BAD_ADDR, voice `V` as received, detail `{OP, I}`
(30_encoding.md R85; 60_exceptions.md R245). -/
def rejectAddress (op v i : Byte) (s : State) : State :=
  respondZeroIfGet op (raiseErr .badAddr v (commandDetail op i) s)

/-- `deliver(buf)` (45_mixer_quantizer.md R201): handed to the sink port, never waiting. -/
def deliver (r : SinkRecord) (s : State) : State := { s with delivered := s.delivered ++ [r] }

/-- The next word of the command port, taken off it (10_state.md R21, 20_memory.md R69). -/
def takeWord (s : State) : Option (CommandWord × State) :=
  match s.commandIn with
  | []        => none
  | w :: rest => some (w, { s with commandIn := rest })

/-- The host puts a word on the command port. -/
def receiveWord (w : CommandWord) (s : State) : State := { s with commandIn := s.commandIn ++ [w] }

/-- A byte arrives on the byte-wide link; the eighth completes a word, least significant byte first
(20_memory.md R64, R66). -/
def receiveByte (b : Byte) (s : State) : State :=
  match s.linkBytes with
  | [b0, b1, b2, b3, b4, b5, b6] =>
    receiveWord (wordOfBytes b0 b1 b2 b3 b4 b5 b6 b) { s with linkBytes := [] }
  | bs => { s with linkBytes := bs ++ [b] }

/-- The host takes the oldest response (20_memory.md R73). -/
def takeResponse (s : State) : State := { s with responses := s.responses.tail }

/-- The sink takes the oldest record. -/
def takeRecord (s : State) : State := { s with delivered := s.delivered.tail }

/-- The sink drives SINK_READY; `REG.SINK_OK` does not follow it (10_state.md R36). -/
def driveSinkReady (r : Bool) (s : State) : State := { s with sinkReady := r }

/-- The reset step (70_reset_and_hazards.md R270, R271): every piece of the block's state as after reset, SINK_READY
sampled. The parameters, the input pin, the records already with the sink and the model's own two fields are not the
block's to reset (log entry 14). -/
def resetStep (s : State) : State :=
  { State.resetWith s.cfg s.sinkReady with
    delivered := s.delivered, schedule := s.schedule, draws := s.draws }

/-- The bytes of a 16-bit sample, low byte first (20_memory.md R65). -/
def bytesOfSample (x : Int) : List Byte :=
  let w := BitVec.ofInt 16 x
  [w.extractLsb' 0 8, w.extractLsb' 8 8]

/-- A record's buffer as bytes: left sample first, right second (20_memory.md R65). -/
def bytesOfBuffer (pairs : List (Int × Int)) : List Byte :=
  pairs.flatMap fun p => bytesOfSample p.1 ++ bytesOfSample p.2

end Sys2Proof.Machine
end

