-- ==== Sys2Proof/Machine/Control.lean ====
section
/-! DEFINITION. The control commands: NOP, SETP, SETS, GETP, GETS, SETD, SETCFG, GETSTAT, CLRDIAG
(46_control_commands.md). The malformed-word checks of 30_encoding.md R85 have run; the address check is here. -/

namespace Sys2Proof.Machine

open Sys2Proof

/-- NOP (R210). -/
def execNop (s : State) : Host.Outcome State Fault Refusal := .next s

/-- The parameter that a voice and an id name, where both exist (20_memory.md R61). -/
def namedParam (s : State) (v p : Byte) : Option Param :=
  if voiceExists s v.toNat then paramOfId s.cfg p else none

/-- The field written with the clamped value, CFG_CLAMP reported (46_control_commands.md R212, R213). -/
def storeParam (v p : Byte) (f : Param) (raw : Int) (s : State) : State :=
  writeParam v.toNat f (clampRaw raw (paramLo f) (paramHi s.cfg f))
    (reportClamp raw (paramLo f) (paramHi s.cfg f) 0x01 p v s)

/-- SETP (R212). -/
def execSetp (v p : Byte) (val : Word) (s : State) : Host.Outcome State Fault Refusal :=
  match namedParam s v p with
  | none   => .next (rejectAddress 0x01 v p s)
  | some f => .next (storeParam v p f (rawOf val) s)

/-- The voice and the step both exist (20_memory.md R61). -/
def cellExists (s : State) (v i : Byte) : Bool := voiceExists s v.toNat && stepExists i.toNat

/-- SETS (R215). -/
def execSets (v i : Byte) (b : Bool) (s : State) : Host.Outcome State Fault Refusal :=
  if cellExists s v i then .next (writeCell v.toNat i.toNat b s) else .next (rejectAddress 0x02 v i s)

/-- GETP (R218). -/
def execGetp (v p : Byte) (s : State) : Host.Outcome State Fault Refusal :=
  match namedParam s v p with
  | none   => .next (rejectAddress 0x08 v p s)
  | some f => .next (respond (BitVec.ofNat 32 (getParam f (s.params v.toNat))) s)

/-- GETS (R220). -/
def execGets (v i : Byte) (s : State) : Host.Outcome State Fault Refusal :=
  if cellExists s v i then .next (respond (BitVec.ofNat 32 (s.gridCell v.toNat i.toNat).toNat) s)
  else .next (rejectAddress 0x09 v i s)

/-- SETD (R223). -/
def execSetd (val : Word) (s : State) : Host.Outcome State Fault Refusal :=
  .next { reportClamp (rawOf val) durationLo durationHi 0x06 0x00 noVoice s with
    duration := clampRaw (rawOf val) durationLo durationHi }

/-- SETCFG (R225). The decoder has already rejected a word with a reserved bit (R226); on a term that is not
well-formed the same check answers the same way (log entry 17). -/
def execSetcfg (c : Word) (s : State) : Host.Outcome State Fault Refusal :=
  if configReservedZero c then .next { s with config := c }
  else .next (raiseErr .badCmd noVoice (commandDetail 0x07 0x00) s)

/-- GETSTAT (R227). -/
def execGetstat (i : Byte) (s : State) : Host.Outcome State Fault Refusal :=
  match readStatus s i with
  | none   => .next (rejectAddress 0x0A 0x00 i s)
  | some w => .next (respond w s)

/-- The diagnostics cleared (R229). -/
def clearDiagnostics (s : State) : State :=
  { s with
    err := 0, lastErr := 0, faultCnt := 0, trigCnt := 0
    voices := s.voices.map fun c => { c with ovrCnt := 0 } }

/-- CLRDIAG (R229). -/
def execClrdiag (s : State) : Host.Outcome State Fault Refusal := .next (clearDiagnostics s)

end Sys2Proof.Machine
end

