-- ==== Sys2Proof/Machine/Transport.lean ====
section
/-! DEFINITION. The transport clock (40_transport_clock.md): START, STOP and SETT, the tick, the trigger with its
single-flight guard, and the snapshot. -/

namespace Sys2Proof.Machine

open Sys2Proof

/-- `T = 15000 / raw` seconds (R110). -/
def tickInterval (tempo : Nat) : Rat := 15000 / (tempo : Rat)

/-- START (R122, R123). The first tick is due at once (R112). -/
def execStart (s : State) : Host.Outcome State Fault Refusal :=
  if s.running then .next s
  else if s.sinkOk then .next { s with running := true, nextInterval := 0 }
  else .next (raiseErr .devUnavail noVoice (commandDetail 0x04 0x00) s)

/-- STOP (R125). -/
def execStop (s : State) : Host.Outcome State Fault Refusal :=
  if s.running then .next { s with running := false, epoch := s.epoch + 1 } else .next s

/-- SETT (R128). -/
def execSett (val : Word) (s : State) : Host.Outcome State Fault Refusal :=
  .next { reportClamp (rawOf val) tempoLo tempoHi 0x03 0x00 noVoice s with
    tempo := clampRaw (rawOf val) tempoLo tempoHi }

/-- The snapshot of a voice at global step `g` (R118). -/
def takeSnapshot (s : State) (v : Nat) (g : BitVec 64) : Snapshot where
  params := s.params v
  dur    := s.duration
  config := s.config
  epoch  := s.epoch
  step   := g

/-- An accepted trigger (R118). -/
def acceptTrigger (v : Nat) (g : BitVec 64) (s : State) : State :=
  { writeSnap v (some (takeSnapshot s v g)) s with trigCnt := s.trigCnt + 1 }

/-- A trigger dropped by the single-flight guard (R117; 60_exceptions.md R247). -/
def dropTrigger (v : Nat) (g : BitVec 64) (s : State) : State :=
  raiseErr .overrun (BitVec.ofNat 8 v) (stepDetail g) (countOverrun v s)

/-- `trigger(v, g)` (R117). -/
def trigger (v : Nat) (g : BitVec 64) (s : State) : State :=
  if s.busy v then dropTrigger v g s else acceptTrigger v g s

/-- The step index of a voice at global step `g` (R113). -/
def stepIndex (s : State) (v : Nat) (g : BitVec 64) : Nat := g.toNat % (s.params v).loopLength

/-- The tick triggers the voice: unmuted, and its grid cell at the step index is active. An index at or beyond
STEP_COUNT would be silent (R113, R115). -/
def tickTriggers (s : State) (g : BitVec 64) (v : Nat) : Bool :=
  (s.params v).mute == 0 && decide (stepIndex s v g < stepCount) && s.gridCell v (stepIndex s v g)

/-- One voice's part of a tick (R113). -/
def tickVoice (g : BitVec 64) (s : State) (v : Nat) : State :=
  if tickTriggers s g v then trigger v g s else s

/-- Every voice's part of a tick, in ascending order (R113; 60_exceptions.md R251). -/
def tickVoices (g : BitVec 64) (s : State) : State := (List.range s.cfg.numVoices).foldl (tickVoice g) s

/-- The tick (R113, R114, R116). -/
def tick (s : State) : State :=
  { tickVoices s.gstep s with gstep := s.gstep + 1, nextInterval := tickInterval s.tempo }

/-- The transport clock's step: a tick is enabled exactly when RUNNING = 1 (R112). -/
def clockStep (s : State) : State := if s.running then tick s else s

end Sys2Proof.Machine
end

