-- ==== Sys2Proof/Machine/Dispatch.lean ====
section
/-! DEFINITION. The meaning of every command, one arm per constructor (30_encoding.md R83). -/

namespace Sys2Proof.Machine

open Sys2Proof

def exec (i : Instr) (s : State) : Host.Outcome State Fault Refusal :=
  match i with
  | .nop => Sys2Proof.Machine.execNop s
  | .setp v p val => Sys2Proof.Machine.execSetp v p val s
  | .sets v k b => Sys2Proof.Machine.execSets v k b s
  | .sett val => Sys2Proof.Machine.execSett val s
  | .start => Sys2Proof.Machine.execStart s
  | .stop => Sys2Proof.Machine.execStop s
  | .setd val => Sys2Proof.Machine.execSetd val s
  | .setcfg c => Sys2Proof.Machine.execSetcfg c s
  | .getp v p => Sys2Proof.Machine.execGetp v p s
  | .gets v k => Sys2Proof.Machine.execGets v k s
  | .getstat k => Sys2Proof.Machine.execGetstat k s
  | .clrdiag => Sys2Proof.Machine.execClrdiag s

end Sys2Proof.Machine
end

