-- ==== Sys2Proof/Machine/Command.lean ====
section
/-! DEFINITION. The host's step: the next command word decoded and executed, or rejected (30_encoding.md R85;
20_memory.md R69). -/

namespace Sys2Proof.Machine

open Sys2Proof

/-- One command word (30_encoding.md R85). -/
def executeWord (w : CommandWord) (s : State) : Host.Outcome State Fault Refusal :=
  match decode w with
  | .ok i    => exec i s
  | .error _ => .next (rejectWord w s)

/-- The host's turn: nothing happens while no word is on the port. -/
def commandStep (s : State) : Host.Outcome State Fault Refusal :=
  match takeWord s with
  | none        => .next s
  | some (w, t) => executeWord w t

end Sys2Proof.Machine
end

