-- ==== Sys2Proof/Machine/FreeValues.lean ====
section
/-! DEFINITION. The free values of a render: what an implementation's arithmetic gives where 45_mixer_quantizer.md R197
and 00_scope.md R12 leave it open. Each is an opaque constant applied to what a render is a function of (R198, R199) and
to the limit the spec sets: the value it gives has the property it is asked for, and nothing else is known of it. -/

namespace Sys2Proof

/-- The rounded products of a render (45_mixer_quantizer.md R190, R194). -/
inductive Machine.Product where
  | quantized | left | right | level
  deriving DecidableEq, Repr

/-- Everything an implementation's rounding at one place may depend on: its arithmetic, `SAMPLE_RATE`, the snapshot
(`EQ_BANDS` is the length of its gains), which product, and which sample. R199: a render reads nothing else. -/
structure Machine.RoundingSite where
  numerics   : Numerics
  sampleRate : Nat
  snapshot   : Machine.Snapshot
  product    : Machine.Product
  sample     : Nat
  deriving DecidableEq, Repr

/-- FREE VALUE: the integer an implementation's truncation gives, one that `admits` holds of (R197; log entry 10). -/
opaque Config.truncationChoice (admits : Int → Prop) [Inhabited (Subtype admits)] (site : Machine.RoundingSite) :
    Subtype admits

/-- FREE VALUE: the level an implementation delivers, one that `admits` holds of (00_scope.md R12; log entry 25). -/
opaque Config.levelChoice (admits : Rat → Prop) [Inhabited (Subtype admits)] (site : Machine.RoundingSite) :
    Subtype admits

end Sys2Proof
end

