-- ==== Sys2Proof/Machine/Arith.lean ====
section
/-! DEFINITION. The arithmetic of the signal path as a record of operations (00_scope.md R12): the stages of a render
(41 to 44) are written once over it. The step runs them on rational enclosures (Interval.lean); Reference.lean runs
them on the exact reals the rules speak of. -/

namespace Sys2Proof.Machine

/-- An arithmetic: exact rationals enter by `rat`, and angles are given in turns (`sinTurn r` is sin(2·π·r)). -/
structure Arith (α : Type) where
  rat     : Rat → α
  add     : α → α → α
  neg     : α → α
  mul     : α → α → α
  scale   : Rat → α → α
  sinTurn : Rat → α
  cosTurn : Rat → α
  tanh    : α → α

/-- A complex value. -/
structure Cx (α : Type) where
  re : α
  im : α
  deriving DecidableEq, Repr

variable {α : Type}

/-- The sum of a list. -/
def sumOf (A : Arith α) (xs : List α) : α := xs.foldr A.add (A.rat 0)

/-- Complex addition. -/
def cxAdd (A : Arith α) (z w : Cx α) : Cx α := ⟨A.add z.re w.re, A.add z.im w.im⟩

/-- Complex multiplication. -/
def cxMul (A : Arith α) (z w : Cx α) : Cx α :=
  ⟨A.add (A.mul z.re w.re) (A.neg (A.mul z.im w.im)), A.add (A.mul z.re w.im) (A.mul z.im w.re)⟩

/-- `conj(z)` (00_scope.md R18). -/
def cxConj (A : Arith α) (z : Cx α) : Cx α := ⟨z.re, A.neg z.im⟩

/-- A complex value times a rational. -/
def cxScale (A : Arith α) (q : Rat) (z : Cx α) : Cx α := ⟨A.scale q z.re, A.scale q z.im⟩

/-- `exp(2·π·i·r)`. -/
def cxTurn (A : Arith α) (r : Rat) : Cx α := ⟨A.cosTurn r, A.sinTurn r⟩

/-- A real value as a complex one. -/
def cxReal (A : Arith α) (x : α) : Cx α := ⟨x, A.rat 0⟩

/-- The sum of a list of complex values. -/
def cxSum (A : Arith α) (zs : List (Cx α)) : Cx α := zs.foldr (cxAdd A) (cxReal A (A.rat 0))

end Sys2Proof.Machine
end

