-- ==== Sys2Proof/Machine/Distortion.lean ====
section
/-! DEFINITION. The distortion stage, stage 3 of a render (43_distortion.md). -/

namespace Sys2Proof.Machine

open Sys2Proof

variable {α : Type}

/-- `gain = 1 + 10·a` (R166). -/
def distortionGain (amount : Nat) : Rat := 1 + 10 * ((amount : Rat) / 1000000)

/-- The stage: the buffer itself at amount 0, else tanh(gain · e[n]) (R166, R167). -/
def distort (A : Arith α) (amount : Nat) (e : List α) : List α :=
  if amount = 0 then e else e.map fun v => A.tanh (A.scale (distortionGain amount) v)

end Sys2Proof.Machine
end

