-- ==== Sys2Proof/Machine/Envelope.lean ====
section
/-! DEFINITION. The envelope shaper, stage 4 of a render (44_envelope.md): exact rationals. -/

namespace Sys2Proof.Machine

open Sys2Proof

variable {α : Type}

/-- `linspace(a, b, n)` (R171). -/
def linspace (a b : Rat) (n : Nat) : List Rat :=
  if n = 1 then [a] else (List.range n).map fun i => a + (b - a) * (i : Rat) / ((n : Rat) - 1)

/-- `sq(xs)` (R171). -/
def squares (xs : List Rat) : List Rat := xs.map fun x => x * x

/-- `const(c, n)` (R171). -/
def constant (c : Rat) (n : Nat) : List Rat := List.replicate n c

/-- `fit(xs, N)`: truncated, or followed by zeros, to length N (R171). -/
def fit (xs : List Rat) (n : Nat) : List Rat := xs.take n ++ List.replicate (n - xs.length) 0

/-- The sample counts of attack, decay and release. -/
structure RampCounts where
  a : Nat
  d : Nat
  r : Nat
  deriving DecidableEq, Repr

/-- `floor(t · Fs / 10^6)` for each time (R174, R178). -/
def plainCounts (fs a d r : Nat) : RampCounts := ⟨a * fs / 1000000, d * fs / 1000000, r * fs / 1000000⟩

/-- `floor(t · (0.99/frac) · Fs)` for each time, in integers (R174). -/
def normalisedCounts (fs dur a d r : Nat) : RampCounts :=
  let q := 100 * (a + d + r) * 1000000
  ⟨a * 99 * dur * fs / q, d * 99 * dur * fs / q, r * 99 * dur * fs / q⟩

/-- Step 1 of the linear variant: the clamp to [0.001, 0.9] s, which changes no stored value (R173). -/
def clampTime (t : Nat) : Nat := clampRaw t 1000 900000

/-- Step 2 of the linear variant on clamped times: normalise when the sum reaches the duration (R174). -/
def linearCounts (fs dur a d r : Nat) : RampCounts :=
  if dur ≤ a + d + r then normalisedCounts fs dur a d r else plainCounts fs a d r

/-- `Sus = max(0, N - A - D - R)` (R175, R178). -/
def sustainCount (n : Nat) (c : RampCounts) : Nat := n - c.a - c.d - c.r

/-- Step 3 of the linear variant (R175). -/
def linearShape (n : Nat) (c : RampCounts) (s : Rat) : List Rat :=
  fit (linspace 0 1 c.a ++ linspace 1 s c.d ++ constant s (sustainCount n c) ++ linspace s 0 c.r) n

/-- The squared variant's segments (R178). -/
def squaredShape (n : Nat) (c : RampCounts) (s : Rat) : List Rat :=
  fit (squares (linspace 0 1 c.a) ++ squares (linspace 1 s c.d) ++ constant (s * s) (sustainCount n c)
    ++ squares (linspace s 0 c.r)) n

/-- The linear variant (R173 to R175). -/
def linearEnvelope (fs dur n a d r : Nat) (s : Rat) : List Rat :=
  linearShape n (linearCounts fs dur (clampTime a) (clampTime d) (clampTime r)) s

/-- The squared variant, no clamp and no normalisation of its own (R178). -/
def squaredEnvelope (fs n a d r : Nat) (s : Rat) : List Rat := squaredShape n (plainCounts fs a d r) s

/-- The envelope of a snapshot for `n` samples; bit 0 of the snapshot's CONFIG selects the variant (R170, R172). -/
def envelope (fs n : Nat) (sn : Snapshot) : List Rat :=
  let s : Rat := (sn.params.sustain : Rat) / 1000000
  if envSquared sn.config then squaredEnvelope fs n sn.params.attack sn.params.decay sn.params.release s
  else linearEnvelope fs sn.dur n sn.params.attack sn.params.decay sn.params.release s

/-- `m[n] = env[n] · d[n]` (R181). -/
def applyEnvelope (A : Arith α) (env : List Rat) (d : List α) : List α := List.zipWith A.scale env d

end Sys2Proof.Machine
end

