-- ==== Sys2Proof/Machine/Interval.lean ====
section
/-! DEFINITION. The signal path's arithmetic on rational enclosures: every operation takes intervals that contain exact
values to an interval that contains the exact result. Sums, products and rational scalings are exact on the end points;
sine, cosine and tanh are enclosed by Taylor sums with an error radius far below any TOL (log entries 10 and 20). -/

namespace Sys2Proof.Machine

/-- A rational interval. -/
structure Iv where
  lo : Rat
  hi : Rat
  deriving DecidableEq, Repr

def ratMin (a b : Rat) : Rat := if a ≤ b then a else b
def ratMax (a b : Rat) : Rat := if a ≤ b then b else a

/-- The interval of one exact value. -/
def ivExact (q : Rat) : Iv := ⟨q, q⟩

def ivAdd (a b : Iv) : Iv := ⟨a.lo + b.lo, a.hi + b.hi⟩

def ivNeg (a : Iv) : Iv := ⟨-a.hi, -a.lo⟩

/-- The product: the least and the greatest product of end points. -/
def ivMul (a b : Iv) : Iv :=
  ⟨ratMin (ratMin (a.lo * b.lo) (a.lo * b.hi)) (ratMin (a.hi * b.lo) (a.hi * b.hi)),
   ratMax (ratMax (a.lo * b.lo) (a.lo * b.hi)) (ratMax (a.hi * b.lo) (a.hi * b.hi))⟩

def ivScale (q : Rat) (a : Iv) : Iv := if 0 ≤ q then ⟨q * a.lo, q * a.hi⟩ else ⟨q * a.hi, q * a.lo⟩

/-- `q` rounded down, and up, to a multiple of 10^-48. -/
def gridFloor (q : Rat) : Rat := ((q * 10 ^ 48).floor : Rat) / 10 ^ 48
def gridCeil (q : Rat) : Rat := -gridFloor (-q)

/-- π to fifty decimals, rounded down. -/
def piLow : Rat := 314159265358979323846264338327950288419716939937510 / 10 ^ 50

/-- The first `m` terms of the sine series. -/
def sinSeries (x : Rat) : Nat → Rat
  | 0     => 0
  | m + 1 => sinSeries x m + (-1) ^ m * x ^ (2 * m + 1) / ((2 * m + 1).factorial : Rat)

/-- The first `m` terms of the cosine series. -/
def cosSeries (x : Rat) : Nat → Rat
  | 0     => 0
  | m + 1 => cosSeries x m + (-1) ^ m * x ^ (2 * m) / ((2 * m).factorial : Rat)

/-- The first `m` terms of the series of `exp(-x)`. -/
def expNegSeries (x : Rat) : Nat → Rat
  | 0     => 0
  | m + 1 => expNegSeries x m + (-1) ^ m * x ^ m / (m.factorial : Rat)

/-- The error radius around a computed sine or cosine: series remainder, the rounding of π and of the argument. -/
def trigRadius : Rat := 1 / 10 ^ 40

/-- The argument of the sine series for an angle of `t` turns, on the 10^-48 grid. -/
def angleOf (t : Rat) : Rat := gridFloor (2 * piLow * t)

/-- sin(2·π·t) for 0 ≤ t ≤ 1/8. -/
def sinEighth (t : Rat) : Iv :=
  if t = 0 then ivExact 0
  else ⟨gridFloor (sinSeries (angleOf t) 17) - trigRadius, gridFloor (sinSeries (angleOf t) 17) + trigRadius⟩

/-- cos(2·π·t) for 0 ≤ t ≤ 1/8. -/
def cosEighth (t : Rat) : Iv :=
  if t = 0 then ivExact 1
  else ⟨gridFloor (cosSeries (angleOf t) 17) - trigRadius, gridFloor (cosSeries (angleOf t) 17) + trigRadius⟩

/-- sin(2·π·t) for 0 ≤ t < 1/4. -/
def sinQuarter (t : Rat) : Iv := if t ≤ 1 / 8 then sinEighth t else cosEighth (1 / 4 - t)

/-- cos(2·π·t) for 0 ≤ t < 1/4. -/
def cosQuarter (t : Rat) : Iv := if t ≤ 1 / 8 then cosEighth t else sinEighth (1 / 4 - t)

/-- sin(2·π·(q/4 + t)) for 0 ≤ t < 1/4. -/
def sinInQuadrant (q : Nat) (t : Rat) : Iv :=
  match q % 4 with
  | 0 => sinQuarter t
  | 1 => cosQuarter t
  | 2 => ivNeg (sinQuarter t)
  | _ => ivNeg (cosQuarter t)

/-- sin(2·π·r). -/
def ivSinTurn (r : Rat) : Iv :=
  let k := (4 * r).floor
  sinInQuadrant (k % 4).toNat (r - (k : Rat) / 4)

/-- cos(2·π·r). -/
def ivCosTurn (r : Rat) : Iv := ivSinTurn (r + 1 / 4)

/-- The error radius around a computed exp(-v), 0 ≤ v ≤ 1. -/
def expRadius : Rat := 1 / 10 ^ 21

/-- exp(-v) for 0 ≤ v ≤ 1. -/
def expNegUnit (v : Rat) : Iv :=
  let c := gridFloor (expNegSeries (gridFloor v) 24)
  ⟨c - expRadius, c + expRadius⟩

/-- The square of a non-negative interval, rounded outward. -/
def ivSquare (a : Iv) : Iv := ⟨gridFloor (a.lo * a.lo), gridCeil (a.hi * a.hi)⟩

/-- `n` squarings. -/
def ivSquareTimes : Nat → Iv → Iv
  | 0,     a => a
  | n + 1, a => ivSquareTimes n (ivSquare a)

/-- exp(-u) for 0 ≤ u: exactly 1 at 0, below 10^-24 from u = 64 on, else (exp(-u/64))^64. -/
def ivExpNeg (u : Rat) : Iv :=
  if u = 0 then ivExact 1
  else if 64 ≤ u then ⟨0, 1 / 10 ^ 24⟩
  else ivSquareTimes 6 (expNegUnit (u / 64))

/-- tanh(x) for 0 ≤ x: (1 - y)/(1 + y) with y = exp(-2x). -/
def tanhNonneg (x : Rat) : Iv :=
  let y := ivExpNeg (2 * x)
  ⟨(1 - y.hi) / (1 + y.hi), (1 - y.lo) / (1 + y.lo)⟩

/-- tanh(x), an odd function. -/
def tanhAt (x : Rat) : Iv := if 0 ≤ x then tanhNonneg x else ivNeg (tanhNonneg (-x))

/-- tanh on an interval: tanh increases. -/
def ivTanh (a : Iv) : Iv := ⟨(tanhAt (gridFloor a.lo)).lo, (tanhAt (gridCeil a.hi)).hi⟩

/-- The arithmetic of the step's renders. -/
def ivArith : Arith Iv where
  rat     := ivExact
  add     := ivAdd
  neg     := ivNeg
  mul     := ivMul
  scale   := ivScale
  sinTurn := ivSinTurn
  cosTurn := ivCosTurn
  tanh    := ivTanh

end Sys2Proof.Machine
end

