-- ==== Sys2Proof/Machine/Mixer.lean ====
section
/-! DEFINITION. The level and the exact arithmetic of the stereo mixer, stage 5 of a render (45_mixer_quantizer.md R190
to R195). What an implementation's arithmetic may give instead is Quantizer.lean's. -/

namespace Sys2Proof.Machine

open Sys2Proof

variable {α : Type}

/-- `Lv = (volume / 10^6) · (gain / 10^6)` (R190). -/
def levelOf (p : VoiceParams) : Rat := (p.volume : Rat) / 1000000 * ((p.gain : Rat) / 1000000)

/-- The quantizer's input: `m[n]`, or `Lv · m[n]` with the level in the mixer (R192, R193). -/
def mixLevel (A : Arith α) (sn : Snapshot) (m : List α) : List α :=
  if dbInMixer sn.config then m.map (A.scale (levelOf sn.params)) else m

/-- `clamp(x, -32768, 32767)` (R194). -/
def clampPcm (x : Int) : Int := if x < -32768 then -32768 else if 32767 < x then 32767 else x

/-- `trunc(q)` (00_scope.md R18). -/
def truncRat (q : Rat) : Int := q.num.tdiv q.den

/-- `|q|`. -/
def ratAbs (q : Rat) : Rat := if 0 ≤ q then q else -q

/-- `TOL` (00_scope.md R12). -/
def tolerance (c : Numerics) : Rat := (c.tolNum : Rat) / (c.tolDen : Rat)

/-- The exact product of a channel, `q · g / 10^6` (R194). -/
def channelProduct (g : Nat) (q : Int) : Rat := (q : Rat) * (g : Rat) / 1000000

end Sys2Proof.Machine
end

