-- ==== Sys2Proof/Machine/SpectralEq.lean ====
section
/-! DEFINITION. The spectral EQ, stage 2 of a render (42_spectral_eq.md): a block transform over the whole buffer
(90_conflicts.md C7). -/

namespace Sys2Proof.Machine

open Sys2Proof

variable {α : Type}

/-- `K = floor(N/2) + 1` bins (R151). -/
def binCount (n : Nat) : Nat := n / 2 + 1

/-- `band(k)` of `b` bands and `kk` bins (R153). -/
def bandOf (b kk k : Nat) : Nat := if kk ≤ 1 then 0 else min (b - 1) (k * b / (kk - 1))

/-- `X[k]`, the forward transform (R151): the sum of x[n] · exp(-2·π·i·k·n/N). -/
def forwardBin (A : Arith α) (x : List α) (k : Nat) : Cx α :=
  cxSum A (x.mapIdx fun n v => cxMul A (cxReal A v) (cxTurn A (-((k * n : Nat) : Rat) / (x.length : Rat))))

/-- The gain `g[j]` of a band (R150). -/
def bandGain (gains : List Nat) (j : Nat) : Rat := (gains.getD j 0 : Rat) / 1000000

/-- `Y[k] = g[band(k)] · X[k]` for the K bins (R155). -/
def gainedBins (A : Arith α) (gains : List Nat) (x : List α) : List (Cx α) :=
  (List.range (binCount x.length)).map fun k =>
    cxScale A (bandGain gains (bandOf gains.length (binCount x.length) k)) (forwardBin A x k)

/-- `Z`, the Hermitian extension to N bins (R156). -/
def hermitian (A : Arith α) (n : Nat) (y : List (Cx α)) : List (Cx α) :=
  (List.range n).map fun k =>
    if k < y.length then y.getD k (cxReal A (A.rat 0)) else cxConj A (y.getD (n - k) (cxReal A (A.rat 0)))

/-- The inverse transform at sample `n`, complex: (1/N) · the sum of Z[k] · exp(2·π·i·k·n/N) (R156). -/
def inverseSample (A : Arith α) (z : List (Cx α)) (n : Nat) : Cx α :=
  cxScale A (1 / (z.length : Rat))
    (cxSum A (z.mapIdx fun k v => cxMul A v (cxTurn A (((k * n : Nat) : Rat) / (z.length : Rat)))))

/-- `eq[n]`: the inverse transform of a Hermitian spectrum is real, so its real part is all of it (R156). -/
def spectralEq (A : Arith α) (gains : List Nat) (x : List α) : List α :=
  let z := hermitian A x.length (gainedBins A gains x)
  (List.range x.length).map fun n => (inverseSample A z n).re

/-- Every band has the gain `g`. -/
def uniformGain (gains : List Nat) (g : Nat) : Bool := gains.all (· == g)

/-- The stage as the step computes it. With one gain c in every band the transform gives c · x[n] exactly (R157), so
the step scales; every other spectrum takes the transform (log entry 18). -/
def eqStage (A : Arith α) (gains : List Nat) (x : List α) : List α :=
  match gains with
  | []     => spectralEq A gains x
  | g :: _ => if uniformGain gains g then x.map (A.scale ((g : Rat) / 1000000)) else spectralEq A gains x

end Sys2Proof.Machine
end

