-- ==== Sys2Proof/Machine/Tone.lean ====
section
/-! DEFINITION. The tone generator, stage 1 of a render (41_tone_generator.md). -/

namespace Sys2Proof.Machine

open Sys2Proof

variable {α : Type}

/-- `N = floor(dur · Fs / 10^6)` (R141). -/
def renderLength (fs dur : Nat) : Nat := dur * fs / 1000000

/-- The phase, in turns, at sample `n` of an oscillator of `mHz` millihertz: f · n / Fs (R140, R142). -/
def phaseTurns (fs mHz n : Nat) : Rat := (mHz : Rat) / 1000 * (n : Rat) / (fs : Rat)

/-- `tone[n]`, the mean of two sines whose phase is 0 at sample 0 (R142, R143). -/
def toneSample (A : Arith α) (fs f1 f2 n : Nat) : α :=
  A.scale (1 / 2) (A.add (A.sinTurn (phaseTurns fs f1 n)) (A.sinTurn (phaseTurns fs f2 n)))

/-- The tone of a snapshot (R140 to R142). -/
def tone (A : Arith α) (fs : Nat) (sn : Snapshot) : List α :=
  (List.range (renderLength fs sn.dur)).map (toneSample A fs sn.params.osc1Freq sn.params.osc2Freq)

end Sys2Proof.Machine
end

