-- ==== Sys2Proof/Machine/SignalPath.lean ====
section
/-! DEFINITION. The stages of a render up to the quantizer, in their order (00_scope.md R3, 45_mixer_quantizer.md
R198). -/

namespace Sys2Proof.Machine

open Sys2Proof

variable {α : Type}

/-- The quantizer's input samples, stage after stage: tone, EQ, distortion, envelope, level (R198). The EQ stage is an
argument: the step takes `eqStage`, the reference the transform itself. -/
def signalPath (A : Arith α) (eq : List Nat → List α → List α) (fs : Nat) (sn : Snapshot) : List α :=
  let e := eq sn.params.eqGain (tone A fs sn)
  let d := distort A sn.params.distortion e
  mixLevel A sn (applyEnvelope A (envelope fs (renderLength fs sn.dur) sn) d)

end Sys2Proof.Machine
end

