-- ==== Sys2Proof/Machine/Reference.lean ====
section
/-! DEFINITION. The exact real-valued reference semantics of a render (00_scope.md R12; 41 to 45), and what an
implementation's arithmetic may give beside it (45_mixer_quantizer.md R197). The step computes enclosures of it and
names it only as the limit of a free value. -/

namespace Sys2Proof.Machine

open Sys2Proof

/-- The signal path's operations on the reals (00_scope.md R18). -/
noncomputable def realArith : Arith ℝ where
  rat     := fun q => (q : ℝ)
  add     := fun x y => x + y
  neg     := fun x => -x
  mul     := fun x y => x * y
  scale   := fun q x => (q : ℝ) * x
  sinTurn := fun r => Real.sin (2 * Real.pi * (r : ℝ))
  cosTurn := fun r => Real.cos (2 * Real.pi * (r : ℝ))
  tanh    := Real.tanh

/-- The complex number of a pair of reals. -/
noncomputable def toComplex (z : Cx ℝ) : ℂ := ⟨z.re, z.im⟩

/-- `X[k]` as 42_spectral_eq.md R151 writes it. -/
noncomputable def referenceBin (x : List ℝ) (k : ℕ) : ℂ :=
  ∑ n ∈ Finset.range x.length,
    (x.getD n 0 : ℂ) * Complex.exp (-2 * Real.pi * Complex.I * (k : ℂ) * (n : ℂ) / (x.length : ℂ))

/-- The quantizer's input samples of the exact render: the transform EQ, no short cut (45_mixer_quantizer.md R198). -/
noncomputable def referencePath (fs : ℕ) (sn : Snapshot) : List ℝ :=
  signalPath realArith (spectralEq realArith) fs sn

/-- `trunc(x)`: the integer part rounded toward zero (00_scope.md R18). -/
noncomputable def truncReal (x : ℝ) : ℤ := if 0 ≤ x then ⌊x⌋ else ⌈x⌉

/-- The integers R197 admits for an exact product: the truncation of some value within TOL, relative, of it
(log entry 10). -/
def Admitted (tol : ℚ) (x : ℝ) (q : ℤ) : Prop := ∃ y : ℝ, |y - x| ≤ (tol : ℝ) * |x| ∧ q = truncReal y

/-- The levels R12 admits for the exact level: those within TOL, relative, of it (log entry 25). -/
def LevelAdmitted (tol lv l : ℚ) : Prop := |l - lv| ≤ tol * |lv|

/-- The exact product the quantizer truncates at sample `n`, `p[n] · 32767` (45_mixer_quantizer.md R194). -/
noncomputable def referenceProduct (fs : ℕ) (sn : Snapshot) (n : ℕ) : ℝ := (referencePath fs sn).getD n 0 * 32767

/-- `q[n]` of an exact product (45_mixer_quantizer.md R194). -/
noncomputable def referenceQuantize (x : ℝ) : ℤ := clampPcm (truncReal x)

/-- One stereo pair of the exact render (45_mixer_quantizer.md R194). -/
def referencePan (p : VoiceParams) (q : ℤ) : ℤ × ℤ :=
  (truncRat (channelProduct p.leftGain q), truncRat (channelProduct p.rightGain q))

/-- The integers R197 admits for a channel of gain `g`, where the arithmetic has come to `q` for the sample of exact
product `x`: those of the product of `q` that are the exact render's integer or one beside it. So the freedom left to
`q` and the freedom left to the channel never add up to two (R197: "one less or one more in magnitude ... and no other";
log entry 10). -/
def ChannelAdmitted (tol : ℚ) (x : ℝ) (g : ℕ) (q z : ℤ) : Prop :=
  Admitted tol ((channelProduct g q : ℚ) : ℝ) z ∧ |z - truncRat (channelProduct g (referenceQuantize x))| ≤ 1

/-- The exact render's record (45_mixer_quantizer.md R198). -/
noncomputable def referenceRender (fs v : ℕ) (sn : Snapshot) : SinkRecord where
  voice := v
  step  := sn.step
  level := if dbInMixer sn.config then 1 else levelOf sn.params
  pairs := (referencePath fs sn).map fun p => referencePan sn.params (referenceQuantize (p * 32767))

/-- `db = 20 · log10(Lv)`, minus infinity at 0 (45_mixer_quantizer.md R190). -/
noncomputable def levelDb (lv : ℝ) : WithBot ℝ := if lv = 0 then ⊥ else ((20 * Real.logb 10 lv : ℝ) : WithBot ℝ)

/-- `10^(db/20)`, 0 at minus infinity (45_mixer_quantizer.md R190). -/
noncomputable def dbToLinear : WithBot ℝ → ℝ
  | none    => 0
  | some db => (10 : ℝ) ^ (db / 20)

/-- The interval contains the exact value. -/
def Encloses (a : Iv) (x : ℝ) : Prop := (a.lo : ℝ) ≤ x ∧ x ≤ (a.hi : ℝ)

end Sys2Proof.Machine
end

