-- ==== Sys2Proof/Machine/Quantizer.lean ====
section
/-! DEFINITION. The quantizer, the channel gains and the delivered level as an implementation within TOL may compute
them (45_mixer_quantizer.md R192 to R197, 00_scope.md R12; log entries 10 and 25). -/

namespace Sys2Proof.Machine

open Sys2Proof

/-- The least and the greatest integer some value within TOL of a value of the interval truncates to. -/
def truncLo (tol : Rat) (a : Iv) : Int := truncRat (a.lo - tol * ratAbs a.lo)
def truncHi (tol : Rat) (a : Iv) : Int := truncRat (a.hi + tol * ratAbs a.hi)

/-- The truncation of the interval's middle: a value within TOL of the exact product wherever the interval is narrower
than TOL. -/
def truncNear (a : Iv) : Int := truncRat ((a.lo + a.hi) / 2)

/-- `trunc` of the exact product in the interval, as an implementation within TOL gives it. Where every value within TOL
truncates alike it is that integer; elsewhere the free value gives one of the integers R197 admits for the EXACT product,
so the interval's own width admits none (R197: "and no other"; log entries 10 and 11). -/
def truncateProduct (tol : Rat) (site : RoundingSite) (admits : Int → Prop) (a : Iv) : Int :=
  if truncHi tol a ≤ truncLo tol a then truncLo tol a
  else (@Config.truncationChoice (fun q => admits q ∨ q = truncNear a) ⟨⟨truncNear a, .inr rfl⟩⟩ site).val

/-- A place of the snapshot's render where the arithmetic rounds. -/
def siteOf (c : Config) (sn : Snapshot) (p : Product) (n : Nat) : RoundingSite where
  numerics   := c.numerics
  sampleRate := c.sampleRate
  snapshot   := sn
  product    := p
  sample     := n

/-- `q[n]` of the sample enclosed by `a` (R194, R197). -/
def quantize (c : Config) (sn : Snapshot) (n : Nat) (a : Iv) : Int :=
  clampPcm (truncateProduct (tolerance c.numerics) (siteOf c sn .quantized n)
    (Admitted (tolerance c.numerics) (referenceProduct c.sampleRate sn n)) (ivScale 32767 a))

/-- `trunc(q · g)` of a channel gain in micro-units (R194, R197). -/
def channel (tol : Rat) (site : RoundingSite) (admits : Int → Prop) (g : Nat) (q : Int) : Int :=
  truncateProduct tol site admits (ivExact (channelProduct g q))

/-- A channel of the sample `n` the quantizer gave `q` for, never more than 1 from the exact render's (R194, R197). -/
def channelOf (c : Config) (sn : Snapshot) (n : Nat) (p : Product) (g : Nat) (q : Int) : Int :=
  channel (tolerance c.numerics) (siteOf c sn p n)
    (ChannelAdmitted (tolerance c.numerics) (referenceProduct c.sampleRate sn n) g q) g q

/-- One stereo pair, left first (R194). -/
def pan (c : Config) (sn : Snapshot) (n : Nat) (q : Int) : Int × Int :=
  (channelOf c sn n .left sn.params.leftGain q, channelOf c sn n .right sn.params.rightGain q)

/-- `Lv` as an implementation within TOL delivers it: exactly itself where TOL leaves no other value. R190 has the
exact `Lv` in [0, 1] and R12 bounds an implementation by TOL alone: that TOL may carry a level at 1 above it, up to
1 + TOL, is the model's choice (log entry 25). -/
def roundLevel (tol : Rat) (site : RoundingSite) (lv : Rat) : Rat :=
  if tol * lv = 0 then lv
  else (@Config.levelChoice (fun l => LevelAdmitted tol lv l ∨ l = lv) ⟨⟨lv, .inr rfl⟩⟩ site).val

/-- The level delivered with the buffer: `Lv`, or 1.0 with the level in the mixer (R192, R193). -/
def deliveredLevel (c : Config) (sn : Snapshot) : Rat :=
  if dbInMixer sn.config then 1 else roundLevel (tolerance c.numerics) (siteOf c sn .level 0) (levelOf sn.params)

end Sys2Proof.Machine
end

