-- ==== Sys2Proof/Machine/Render.lean ====
section
/-! DEFINITION. The whole render and the completion step of a render unit (45_mixer_quantizer.md R198 to R203). -/

namespace Sys2Proof.Machine

open Sys2Proof

/-- `pairs` (R194). -/
def renderPairs (c : Config) (sn : Snapshot) : List (Int × Int) :=
  (signalPath ivArith (eqStage ivArith) c.sampleRate sn).mapIdx fun n a => pan c sn n (quantize c sn n a)

/-- `render(S)` (R198): a function of the snapshot and the implementation parameters, nothing else (R199). -/
def render (c : Config) (v : Nat) (sn : Snapshot) : SinkRecord where
  voice := v
  step  := sn.step
  level := deliveredLevel c sn
  pairs := renderPairs c sn

/-- A render that failed (R200, R203; 60_exceptions.md R248). -/
def failRender (v : Nat) (sn : Snapshot) (s : State) : State :=
  writeSnap v none
    { raiseErr .renderFault (BitVec.ofNat 8 v) (stepDetail sn.step) s with faultCnt := saturatingSucc s.faultCnt }

/-- A render that finished: BUSY cleared, the buffer delivered unless a STOP came since its trigger (R200, R201). -/
def finishRender (v : Nat) (sn : Snapshot) (s : State) : State :=
  if sn.epoch = s.epoch then deliver (render s.cfg v sn) (writeSnap v none s) else writeSnap v none s

/-- The draw of R203: the render failed. -/
def renderFailed (s : State) : Bool := s.cfg.renderMayFail && Config.renderFails s.draws

/-- `complete(v)`, enabled exactly when `BUSY[v] = 1` (R200). It takes one draw index, R203's. -/
def renderStep (v : Nat) (s : State) : State :=
  match (s.voice v).snap with
  | none    => s
  | some sn => { (if renderFailed s then failRender v sn s else finishRender v sn s) with draws := s.draws + 1 }

end Sys2Proof.Machine
end

