-- ==== Sys2Proof/Machine/Schedule.lean ====
section
/-! DEFINITION. Whose step comes next (20_memory.md R68): the head of `schedule`; where that list has run out, the
enabled agent if there is one, and one of them by a free value if there are several (log entries 4 and 5). -/

namespace Sys2Proof.Machine

open Sys2Proof

/-- The voices whose completion is enabled. -/
def busyVoices (s : State) : List Nat := (List.range s.cfg.numVoices).filter s.busy

/-- The agents' enabled steps: a command needs a word on the port, a tick RUNNING = 1, a completion BUSY[v] = 1
(20_memory.md R68). -/
def enabledTurns (s : State) : List Turn :=
  (if s.commandIn.isEmpty then [] else [.command]) ++ (if s.running then [.tick] else []) ++
    (busyVoices s).map .complete

/-- The next turn and the state it acts on; none when nothing is due and nothing is enabled. -/
def nextTurn (s : State) : Option (Turn × State) :=
  match s.schedule with
  | t :: rest => some (t, { s with schedule := rest })
  | [] =>
    match enabledTurns s with
    | []           => none
    | [t]          => some (t, s)
    | t :: u :: ts =>
      some ((t :: u :: ts).getD (Config.agentChoice s.draws % (ts.length + 2)) t, { s with draws := s.draws + 1 })

/-- A word put at the head of the command port, and the next turn given to the host. -/
def presentWord (w : CommandWord) (s : State) : State :=
  { s with commandIn := w :: s.commandIn, schedule := .command :: s.schedule }

end Sys2Proof.Machine
end

