-- ==== Sys2Proof/Machine/Step.lean ====
section
/-! DEFINITION. One step of the block: one atomic step of one agent, or one event at a port (20_memory.md R68). -/

namespace Sys2Proof.Machine

open Sys2Proof

/-- One turn of an agent or of the outside world. -/
def runTurn (t : Turn) (s : State) : Host.Outcome State Fault Refusal :=
  match t with
  | .command     => commandStep s
  | .tick        => .next (clockStep s)
  | .complete v  => .next (renderStep v s)
  | .wordIn w    => .next (receiveWord w s)
  | .byteIn b    => .next (receiveByte b s)
  | .responseOut => .next (takeResponse s)
  | .recordOut   => .next (takeRecord s)
  | .sinkReady r => .next (driveSinkReady r s)
  | .reset       => .next (resetStep s)

/-- One step. With nothing due and nothing enabled the block waits (log entry 5). -/
def step (s : State) : Host.Outcome State Fault Refusal :=
  match nextTurn s with
  | none        => .next s
  | some (t, u) => runTurn t u

/-- The word where the next step takes its command from, the next turn being the host's (log entry 6). -/
def State.withFetchWord (s : State) (nbits w : Nat) : State := presentWord (BitVec.ofNat 64 (w % 2 ^ nbits)) s

end Sys2Proof.Machine
end

