-- ==== Sys2Proof/Machine/Assembler.lean ====
section
/-! DEFINITION. The assembler of 30_encoding.md R92 and R93: one line of text to the commands it stands for. The step
does not use it. A line is a list of characters, so that it can be evaluated by structural recursion. -/

namespace Sys2Proof.Machine

open Sys2Proof

/-- A written value (R92): a plain integer is the raw value; the rest is a decimal number with its unit. -/
inductive AsmValue where
  | plain (n : Int)
  | hz (q : Rat)
  | s (q : Rat)
  | ms (q : Rat)
  | bpm (q : Rat)
  | fraction (q : Rat)
  deriving DecidableEq, Repr

/-- A rational that is an integer. -/
def exactInt (q : Rat) : Option Int := if q.den = 1 then some q.num else none

/-- The raw value, converted exactly: never rounded, an error where it is no integer (R92). -/
def AsmValue.raw : AsmValue → Option Int
  | .plain n    => some n
  | .hz q       => exactInt (q * 1000)
  | .s q        => exactInt (q * 1000000)
  | .ms q       => exactInt (q * 1000)
  | .bpm q      => exactInt (q * 1000)
  | .fraction q => exactInt (q * 1000000)

/-- The 32-bit field of a raw value; an error where it does not fit (log entry 23). -/
def valField (n : Int) : Option Word := if -2147483648 ≤ n ∧ n < 2147483648 then some (BitVec.ofInt 32 n) else none

/-- The decimal number of a list of digits. -/
def natOfDigits (cs : List Char) : Nat := cs.foldl (fun n c => 10 * n + (c.toNat - 48)) 0

/-- A list of one or more decimal digits. The spec states no radix: decimal alone, a 0x numeral being an assembly error,
is the model's choice (log entry 23). -/
def parseNat (cs : List Char) : Option Nat :=
  if cs.isEmpty || !cs.all Char.isDigit then none else some (natOfDigits cs)

/-- A number with a unit suffix. -/
def withUnit (q : Rat) (unit : List Char) : Option AsmValue :=
  if unit == ['H', 'z'] then some (.hz q)
  else if unit == ['s'] then some (.s q)
  else if unit == ['m', 's'] then some (.ms q)
  else if unit == ['B', 'P', 'M'] then some (.bpm q)
  else none

/-- A value without its sign. R92 gives one example of a decimal, 0.7: that digits must stand on both sides of a point,
so that .5 and 5. are assembly errors, is the model's choice (log entry 23). -/
def parseMagnitude (cs : List Char) (sign : Int) : Option AsmValue :=
  let (whole, rest) := cs.span Char.isDigit
  if whole.isEmpty then none
  else match rest with
    | []          => some (.plain (sign * natOfDigits whole))
    | '.' :: more =>
      let (part, unit) := more.span Char.isDigit
      let q : Rat := (sign * natOfDigits (whole ++ part) : Int) / (10 ^ part.length : Rat)
      if part.isEmpty then none else if unit.isEmpty then some (.fraction q) else withUnit q unit
    | unit        => withUnit ((sign * natOfDigits whole : Int) : Rat) unit

/-- A value (R92). That a leading minus is the one sign, a leading plus being an assembly error, is the model's choice
(log entry 23). -/
def parseValue : List Char → Option AsmValue
  | '-' :: cs => parseMagnitude cs (-1)
  | cs        => parseMagnitude cs 1

/-- A value's 32-bit field. R92 is silent on a suffix that does not suit its target: that the suffix alone converts, so
that a frequency in seconds assembles, is the model's choice (log entry 23). -/
def parseVal (cs : List Char) : Option Word := (parseValue cs).bind fun x => x.raw.bind valField

/-- A number's 8-bit field; an assembly error where it does not fit (log entry 23). -/
def parseIndex (cs : List Char) : Option Byte := (parseNat cs).bind indexField

/-- The index in square brackets after a name. -/
def parseBracket (name cs : List Char) : Option Nat :=
  if cs.take name.length == name then
    match cs.drop name.length with
    | '[' :: rest =>
      match rest.reverse with
      | ']' :: k => parseNat k.reverse
      | _        => none
    | _ => none
  else none

/-- The entry of a name in a table of names. -/
def lookupName {β : Type} (table : List (String × β)) (cs : List Char) : Option β :=
  (table.find? fun e => e.1.toList == cs).map Prod.snd

/-- The scalar parameters by name (10_state.md R26, 30_encoding.md R90). -/
def paramNames : List (String × Byte) :=
  [("osc1_freq", 0x00), ("osc2_freq", 0x01), ("volume", 0x02), ("gain", 0x03), ("attack", 0x04), ("decay", 0x05),
   ("release", 0x06), ("sustain", 0x07), ("distortion", 0x08), ("left_gain", 0x09), ("right_gain", 0x0A),
   ("loop_length", 0x0B), ("mute", 0x0C)]

/-- The id of a parameter's name, `eq[k]` for `eq_gain[k]` (R92). -/
def parseParam (cs : List Char) : Option Byte :=
  (lookupName paramNames cs).or ((parseBracket ['e', 'q'] cs).bind fun k => indexField (0x20 + k))

/-- The status registers by name (10_state.md R45). -/
def statusNames : List (String × Byte) :=
  [("STATUS", 0x00), ("ERR", 0x01), ("TEMPO", 0x02), ("DURATION", 0x03), ("CONFIG", 0x04), ("GSTEP_LO", 0x05),
   ("GSTEP_HI", 0x06), ("BUSY", 0x07), ("CAPS", 0x08), ("SAMPLE_RATE", 0x09), ("FAULT_CNT", 0x0A), ("TRIG_CNT", 0x0B),
   ("EQ_GAIN_MAX", 0x0C), ("EQ_DEFAULT", 0x0D), ("LAST_ERR", 0x0E)]

/-- A status index, by number or by name (R92). -/
def parseStatus (cs : List Char) : Option Byte :=
  ((parseIndex cs).or (lookupName statusNames cs)).or
    ((parseBracket "OVR_CNT".toList cs).bind fun v => indexField (0x10 + v))

/-- The list cut at every character `sep`. -/
def splitAtChar (sep : Char) : List Char → List (List Char)
  | []      => [[]]
  | c :: cs =>
    match splitAtChar sep cs with
    | []          => [[c]]
    | part :: ps => if c == sep then [] :: part :: ps else (c :: part) :: ps

/-- Leading and trailing blanks dropped. -/
def trimBlanks (cs : List Char) : List Char :=
  ((cs.dropWhile (·.isWhitespace)).reverse.dropWhile (·.isWhitespace)).reverse

/-- The configuration switches by name (R92). -/
def configNames : List (String × Word) := [("ENV_SQUARED", 1), ("DB_IN_MIXER", 2)]

/-- The 32-bit field of configuration bits; an error where they do not fit (log entry 23). -/
def bitsField (n : Nat) : Option Word := if n < 2 ^ 32 then some (BitVec.ofNat 32 n) else none

/-- Configuration bits, or names joined by `|` (R92). R92 says VAL = bits and gives `bits` no token form: that it is a
plain decimal integer, with no sign, unit or decimal point, is the model's choice (log entry 23). -/
def parseConfig (cs : List Char) : Option Word :=
  ((parseNat cs).bind bitsField).or (((splitAtChar '|' cs).mapM fun n => lookupName configNames (trimBlanks n)).map
    fun ws => ws.foldl (· ||| ·) 0)

/-- A single bit. -/
def parseBit (cs : List Char) : Option Bool :=
  if cs == ['0'] then some false else if cs == ['1'] then some true else none

/-- A voice, a parameter id and a value (R92). -/
def asmSetp (v p x : List Char) : Option Instr := do some (.setp (← parseIndex v) (← parseParam p) (← parseVal x))

/-- The cells of PATTERN in index order (R93). R93 speaks of 32 bits and of fewer; that more than 32 are an assembly
error is the model's choice (log entry 23). -/
def asmPattern (v : Byte) (bits : List Bool) : Option (List Instr) :=
  if bits.length ≤ stepCount then some (bits.mapIdx fun i b => .sets v (BitVec.ofNat 8 i) b) else none

/-- A command or pseudo-command with its operands (R92, R93). -/
def asmForm (mnemonic : String) (ops : List (List Char)) : Option (List Instr) :=
  match mnemonic, ops with
  | "NOP",     []        => some [.nop]
  | "SETP",    [v, p, x] => (asmSetp v p x).map (fun i => [i])
  | "SETS",    [v, i, b] => do some [.sets (← parseIndex v) (← parseIndex i) (← parseBit b)]
  | "SETT",    [x]       => do some [.sett (← parseVal x)]
  | "START",   []        => some [.start]
  | "STOP",    []        => some [.stop]
  | "SETD",    [x]       => do some [.setd (← parseVal x)]
  | "SETCFG",  [c]       => do some [.setcfg (← parseConfig c)]
  | "GETP",    [v, p]    => do some [.getp (← parseIndex v) (← parseParam p)]
  | "GETS",    [v, i]    => do some [.gets (← parseIndex v) (← parseIndex i)]
  | "GETSTAT", [i]       => do some [.getstat (← parseStatus i)]
  | "CLRDIAG", []        => some [.clrdiag]
  | "MUTE",    [v]       => do some [.setp (← parseIndex v) 0x0C 1]
  | "UNMUTE",  [v]       => do some [.setp (← parseIndex v) 0x0C 0]
  | "LOOP",    [v, n]    => do some [.setp (← parseIndex v) 0x0B (← parseVal n)]
  | "PAN",     [v, l, r] => do
    some [.setp (← parseIndex v) 0x09 (← parseVal l), .setp (← parseIndex v) 0x0A (← parseVal r)]
  | "PATTERN", [v, bs]   => do
    asmPattern (← parseIndex v) (← ((splitAtChar ' ' bs).filter (!·.isEmpty)).mapM parseBit)
  | "RDGSTEP", []        => some [.getstat 0x05, .getstat 0x06]
  | "SYNC",    []        => some [.getstat 0x00]
  | _,         _         => none

/-- One line of assembly: a comment starts with `;`, a mnemonic, then operands separated by commas (R92). None is an
assembly error. -/
def assembleLine (line : List Char) : Option (List Instr) :=
  let text := trimBlanks (line.takeWhile (· != ';'))
  if text.isEmpty then some []
  else
    let (mnemonic, rest) := text.span (!·.isWhitespace)
    let ops := trimBlanks rest
    asmForm (String.ofList mnemonic) (if ops.isEmpty then [] else (splitAtChar ',' ops).map trimBlanks)

end Sys2Proof.Machine
end

