-- ==== Sys2Proof/Machine/Persistence.lean ====
section
/-! DEFINITION. The persistence collaborator's load and save as commands (46_control_commands.md R232). The document is
the collaborator's, outside the block (00_scope.md R5); the step does not use this file. -/

namespace Sys2Proof.Machine

open Sys2Proof

/-- The `voices` and `sequence` fields of a document, either of which may be missing: per voice the present
parameters as raw values, none for an unknown key, and the present cells. -/
structure PatternDocument where
  voices   : Option (List (List (Option Param × Int)))
  sequence : Option (List (List (Option Bool)))
  deriving DecidableEq, Repr

/-- A raw value in the 32-bit field of SETP, the nearest one where it does not fit: SETP clamps it further (R213). -/
def rawField (n : Int) : Word :=
  BitVec.ofInt 32 (if n < -2147483648 then -2147483648 else if 2147483647 < n then 2147483647 else n)

/-- One SETP per parameter present, none for an unknown key (R232). R232 does not say what a load does with a voice or
an EQ gain the machine has not: the model's choice is that the command is issued all the same and raises BAD_ADDR, and
that none is issued where the number does not fit its byte, so that no command names another register (log entry 24). -/
def loadVoice (v : Nat) (entries : List (Option Param × Int)) : List Instr :=
  entries.filterMap fun e => do
    some (.setp (← indexField v) (← idField (← e.1)) (rawField e.2))

/-- One SETS per cell present (R232). A cell or a voice the machine has not: as in `loadVoice` (log entry 24). -/
def loadRow (v : Nat) (cells : List (Option Bool)) : List Instr :=
  (cells.mapIdx fun i o => do some (Instr.sets (← indexField v) (← indexField i) (← o))).filterMap id

/-- The commands of a load: none for a missing field (R232). -/
def loadCommands (d : PatternDocument) : List Instr :=
  ((d.voices.getD []).mapIdx loadVoice).flatten ++ ((d.sequence.getD []).mapIdx loadRow).flatten

/-- Every parameter of a voice, in id order. -/
def allParams (c : Config) : List Param :=
  [.osc1Freq, .osc2Freq, .volume, .gain, .attack, .decay, .release, .sustain, .distortion, .leftGain, .rightGain,
   .loopLength, .mute] ++ (List.range c.eqBands).map .eqGain

/-- The commands of a save of voice `v`: a GETP of every field and a GETS of every cell (R232). R232 names no order:
fields in id order, then cells in index order, is the model's choice (log entry 24). -/
def saveVoice (c : Config) (v : Nat) : List Instr :=
  (allParams c).map (fun f => .getp (BitVec.ofNat 8 v) (idOfParam f)) ++
    (List.range stepCount).map fun i => .gets (BitVec.ofNat 8 v) (BitVec.ofNat 8 i)

/-- The commands of a save (R232), voice by voice (log entry 24). -/
def saveCommands (c : Config) : List Instr := (List.range c.numVoices).flatMap (saveVoice c)

/-- What a save answers for voice `v`: its fields, then its cells, as response words. -/
def savedWords (s : State) (v : Nat) : List Word :=
  (allParams s.cfg).map (fun f => BitVec.ofNat 32 (getParam f (s.params v))) ++
    (List.range stepCount).map fun i => BitVec.ofNat 32 (s.gridCell v i).toNat

/-- Commands executed one after the other (20_memory.md R69). -/
def execAll : List Instr → State → Host.Outcome State Fault Refusal
  | [],      s => .next s
  | i :: is, s =>
    match exec i s with
    | .next t    => execAll is t
    | .fault r   => .fault r
    | .refused r => .refused r

/-- The document of a state: every field and every cell present. -/
def documentOf (s : State) : PatternDocument where
  voices   := some ((List.range s.cfg.numVoices).map fun v =>
    (allParams s.cfg).map fun f => (some f, (getParam f (s.params v) : Int)))
  sequence := some ((List.range s.cfg.numVoices).map fun v =>
    (List.range stepCount).map fun i => some (s.gridCell v i))

end Sys2Proof.Machine
end

