-- ==== Sys2Proof/Safety.lean ====
section
/-! DEFINITION. What a legal state is: the ranges of 10_state.md R26, R28, R33, R35, R37, R41 and the shape of the
lists; and what a run that stays safe is. -/

namespace Sys2Proof

/-- Legal scalar fields (10_state.md R26). -/
abbrev VoiceScalars.Legal (r : VoiceScalars) : Prop :=
  r.osc1Freq ≤ 880000 ∧ r.osc2Freq ≤ 880000 ∧ r.volume ≤ 1000000 ∧ r.gain ≤ 1000000 ∧
  (1000 ≤ r.attack ∧ r.attack ≤ 900000) ∧ (1000 ≤ r.decay ∧ r.decay ≤ 900000) ∧
  (1000 ≤ r.release ∧ r.release ≤ 900000) ∧ r.sustain ≤ 1000000 ∧ r.distortion ≤ 1000000 ∧
  r.leftGain ≤ 1000000 ∧ r.rightGain ≤ 1000000 ∧ (1 ≤ r.loopLength ∧ r.loopLength ≤ 32) ∧ r.mute ≤ 1

/-- Legal implementation parameters (00_scope.md R7 to R14). The bounds on TOL, 10^-9 to 10^-5, are log entry 11's. -/
abbrev Config.Legal (c : Config) : Prop :=
  (1 ≤ c.numVoices ∧ c.numVoices ≤ 32) ∧ (2000 ≤ c.sampleRate ∧ c.sampleRate ≤ 192000) ∧
  (1 ≤ c.eqBands ∧ c.eqBands ≤ 32) ∧ (c.eqDefaultGain = 500000 ∨ c.eqDefaultGain = 1000000) ∧
  (1000000 ≤ c.eqGainMax ∧ c.eqGainMax ≤ 1000000000) ∧
  (0 < c.numerics.tolDen ∧ c.numerics.tolNum * 100000 ≤ c.numerics.tolDen ∧
    c.numerics.tolDen ≤ c.numerics.tolNum * 1000000000) ∧
  c.voiceReset.Legal

namespace Machine

/-- The scalar fields, every one but the EQ gains. -/
def scalarParams : List Param :=
  [.osc1Freq, .osc2Freq, .volume, .gain, .attack, .decay, .release, .sustain, .distortion, .leftGain, .rightGain,
   .loopLength, .mute]

/-- A row of the range table of 10_state.md R26: id, field, least and greatest raw value. -/
structure RangeRow where
  id    : Byte
  field : Param
  lo    : Nat
  hi    : Nat
  deriving DecidableEq, Repr

/-- The range table of 10_state.md R26 as it is written there. -/
def rangeTable (c : Config) : List RangeRow :=
  [⟨0x00, .osc1Freq, 0, 880000⟩, ⟨0x01, .osc2Freq, 0, 880000⟩, ⟨0x02, .volume, 0, 1000000⟩, ⟨0x03, .gain, 0, 1000000⟩,
   ⟨0x04, .attack, 1000, 900000⟩, ⟨0x05, .decay, 1000, 900000⟩, ⟨0x06, .release, 1000, 900000⟩,
   ⟨0x07, .sustain, 0, 1000000⟩, ⟨0x08, .distortion, 0, 1000000⟩, ⟨0x09, .leftGain, 0, 1000000⟩,
   ⟨0x0A, .rightGain, 0, 1000000⟩, ⟨0x0B, .loopLength, 1, 32⟩, ⟨0x0C, .mute, 0, 1⟩] ++
  (List.range c.eqBands).map fun k => ⟨BitVec.ofNat 8 (0x20 + k), .eqGain k, 0, c.eqGainMax⟩

/-- Every field of a parameter record in its legal range, and EQ_BANDS gains (10_state.md R26, R28). -/
abbrev LegalParams (c : Config) (r : VoiceParams) : Prop :=
  (∀ f ∈ scalarParams, paramLo f ≤ getParam f r ∧ getParam f r ≤ paramHi c f) ∧
  r.eqGain.length = c.eqBands ∧ ∀ g ∈ r.eqGain, g ≤ c.eqGainMax

/-- A snapshot of legal values (10_state.md R28, R35, R37). -/
abbrev LegalSnapshot (c : Config) (sn : Snapshot) : Prop :=
  LegalParams c sn.params ∧ (durationLo ≤ sn.dur ∧ sn.dur ≤ durationHi) ∧ configReservedZero sn.config = true

/-- A voice of legal values. -/
abbrev LegalVoice (c : Config) (x : Voice) : Prop :=
  LegalParams c x.params ∧ ∀ sn ∈ x.snap, LegalSnapshot c sn

/-- A 16-bit sample (45_mixer_quantizer.md R196). -/
abbrev InPcmRange (x : Int) : Prop := -32768 ≤ x ∧ x ≤ 32767

/-- A record of legal samples (45_mixer_quantizer.md R196). -/
abbrev LegalRecord (r : SinkRecord) : Prop := ∀ p ∈ r.pairs, InPcmRange p.1 ∧ InPcmRange p.2

/-- The legal states: what reset gives and every step keeps (10_state.md R28). -/
abbrev State.Inv (s : State) : Prop :=
  s.cfg.Legal ∧
  s.voices.length = s.cfg.numVoices ∧
  (∀ x ∈ s.voices, LegalVoice s.cfg x) ∧
  (tempoLo ≤ s.tempo ∧ s.tempo ≤ tempoHi) ∧
  (durationLo ≤ s.duration ∧ s.duration ≤ durationHi) ∧
  configReservedZero s.config = true ∧
  s.err.extractLsb' 6 26 = 0 ∧
  (s.nextInterval = 0 ∨ (1 / 16 ≤ s.nextInterval ∧ s.nextInterval ≤ 1 / 4)) ∧
  s.linkBytes.length ≤ 7 ∧
  (∀ r ∈ s.delivered, LegalRecord r)

/-- The turn is the host's and the word it takes stands for the command `i`. -/
def RunsCommand (t : Turn) (u : State) (i : Instr) : Prop :=
  t = .command ∧ ∃ w rest, u.commandIn = w :: rest ∧ decode w = .ok i

/-- The turns run one after the other from `s` to `t`, each of them allowed where it runs. -/
def RunsTo (allowed : Turn → State → Prop) : List Turn → State → State → Prop
  | [],      s, t => s = t
  | a :: as, s, t => allowed a s ∧ ∃ u, runTurn a s = .next u ∧ RunsTo allowed as u t

/-- A word of the opcode with a bit of the mask set has no effect but BAD_CMD and, for a GET-class opcode, the
response 0 (30_encoding.md R84, R87; 60_exceptions.md R244). -/
def MalformedRejected (op : Byte) (mask : CommandWord) : Prop :=
  ∀ (w : CommandWord) (s : State), fieldOp w = op → w &&& mask ≠ 0 →
    executeWord w s = .next { s with
      err := s.err ||| 2
      lastErr := fieldOp w ++ fieldI w ++ (0xFF : Byte) ++ (2 : Byte)
      responses := if op = 0x08 ∨ op = 0x09 ∨ op = 0x0A then s.responses ++ [0] else s.responses }

/-- The state after a command that names what does not exist (30_encoding.md R85; 60_exceptions.md R245). -/
def badAddrState (op v i : Byte) (s : State) : State :=
  { s with
    err := s.err ||| 4
    lastErr := op ++ i ++ v ++ (3 : Byte)
    responses := if op = 0x08 ∨ op = 0x09 ∨ op = 0x0A then s.responses ++ [0] else s.responses }

/-- A run of `n` steps neither faults nor is refused, and ends in a legal state. -/
def SafeFor (n : Nat) (s : State) : Prop :=
  ∃ t, Host.Core.run ⟨State, Fault, Refusal, step, State.reset⟩ n s = .next t ∧ t.Inv

end Machine

end Sys2Proof
end

