-- ==== Sys2Proof/Certificates/Slice0/Obligations.lean ====
section
/-! DEFINITION. The statements for the provers. Each docstring names the rules it formalises. -/

open Sys2Proof Sys2Proof.Machine

/-! Reset, the invariant, the step -/

/-- 70_reset_and_hazards.md R270, 10_state.md R27: the reset turn sets every register of the table, whatever the state
was, and the default VOICE_RESET is R27's table. -/
def Obligations.ResetStepSetsEveryRegister : Prop :=
  (∀ s : State, ∃ t, runTurn .reset s = .next t ∧
    t.voices = List.replicate s.cfg.numVoices
      { params := { s.cfg.voiceReset with eqGain := List.replicate s.cfg.eqBands s.cfg.eqDefaultGain }
        grid := Vector.replicate 32 false, snap := none, ovrCnt := 0 } ∧
    t.running = false ∧ t.tempo = 120000 ∧ t.gstep = 0 ∧ t.duration = 500000 ∧ t.sinkOk = s.sinkReady ∧
    t.config = 0 ∧ t.epoch = 0 ∧ t.err = 0 ∧ t.lastErr = 0 ∧ t.faultCnt = 0 ∧ t.trigCnt = 0 ∧
    t.commandIn = [] ∧ t.linkBytes = [] ∧ t.responses = []) ∧
  Config.default.voiceReset =
    { osc1Freq := 440000, osc2Freq := 440000, volume := 1000000, gain := 1000000, attack := 10000, decay := 100000
      release := 100000, sustain := 700000, distortion := 0, leftGain := 1000000, rightGain := 1000000
      loopLength := 32, mute := 0 }

/-- 70_reset_and_hazards.md R273: the state after reset is legal for all legal parameters and any SINK_READY, no tick
and no completion is enabled, and with a word on the port a command is the only enabled step. (Legal parameters have a
TOL in log entry 11's range, and the legal state's clause on `nextInterval` holds by log entry 8's choice of 0.) -/
def Obligations.ResetStateIsLegalAndIdle : Prop :=
  (∀ (c : Config) (r : Bool), c.Legal →
    (State.resetWith c r).Inv ∧ (State.resetWith c r).running = false ∧
    (∀ v, (State.resetWith c r).busy v = false) ∧
    enabledTurns (State.resetWith c r) = [] ∧
    ∀ w, enabledTurns (receiveWord w (State.resetWith c r)) = [.command]) ∧
  ∀ (r : Bool) (v : Nat), ((State.resetWith Config.default r).params v).loopLength = 32

/-- 10_state.md R28: every step, from every legal state, leaves a legal state: every field in its legal range, every
loop length in [1, STEP_COUNT], EQ_BANDS gains in every voice, and the other clauses of `State.Inv`. (Its clause that
`nextInterval` is 0 or lies in [1/16, 1/4] is 40_transport_clock.md R110, R113 and R116's for a tick, and log entry 8's
choice for reset and START; legal parameters have a TOL in log entry 11's range.) -/
def Obligations.EveryStepKeepsLegalState : Prop :=
  ∀ s t : State, s.Inv → step s = .next t → t.Inv

/-- 20_memory.md R69, 30_encoding.md R85: on the host's turn the step takes the oldest word off the port and runs the
command it stands for; so does a step with nothing scheduled when only a command is enabled; and `withFetchWord` puts
a word where the next step takes it. (`schedule` and the arrival of words are log entries 4 and 6.) -/
def Obligations.StepRunsDecodedCommand : Prop :=
  ∀ (s : State) (w : CommandWord) (i : Instr), decode w = .ok i → i.WellFormed →
    (∀ rest later, s.commandIn = w :: rest → s.schedule = .command :: later →
      step s = exec i { s with commandIn := rest, schedule := later }) ∧
    (∀ rest, s.commandIn = w :: rest → s.schedule = [] → s.running = false →
      (∀ v, v < s.cfg.numVoices → s.busy v = false) → step s = exec i { s with commandIn := rest }) ∧
    step (s.withFetchWord 64 w.toNat) = exec i s

/-- 20_memory.md R68, 40_transport_clock.md R112, 45_mixer_quantizer.md R200: a step with a turn scheduled is that turn:
the clock's ticks exactly when RUNNING = 1, a busy voice's is the completion of its render and leaves it free, the
host's runs the oldest word on the port. (`schedule` is log entry 4's; that a turn which is not enabled, a tick while
stopped, a completion of a free voice or the host's turn without a word, passes and changes nothing is log entry 5's.) -/
def Obligations.ScheduledTurnsRunWhenEnabled : Prop :=
  ∀ (s : State) (later : List Turn),
    (∀ t, s.schedule = t :: later → step s = runTurn t { s with schedule := later }) ∧
    (s.schedule = .tick :: later →
      step s = .next (if s.running then tick { s with schedule := later } else { s with schedule := later })) ∧
    (∀ v, s.schedule = .complete v :: later → v < s.voices.length → s.busy v = true →
      ∃ t, step s = .next t ∧ t = renderStep v { s with schedule := later } ∧ t.busy v = false) ∧
    (∀ v, s.schedule = .complete v :: later → s.busy v = false → step s = .next { s with schedule := later }) ∧
    (∀ w rest, s.schedule = .command :: later → s.commandIn = w :: rest →
      step s = executeWord w { s with commandIn := rest, schedule := later }) ∧
    (s.schedule = .command :: later → s.commandIn = [] → step s = .next { s with schedule := later })

/-- 20_memory.md R68: with nothing scheduled the step is that of SOME enabled agent, whichever the free value names,
and the state waits unchanged when none is enabled. (That a free value picks among several is log entry 4's.) -/
def Obligations.UnscheduledStepTakesAnEnabledTurn : Prop :=
  ∀ s : State, s.schedule = [] →
    (enabledTurns s = [] → step s = .next s) ∧
    (enabledTurns s ≠ [] → ∃ t ∈ enabledTurns s, ∃ n, step s = runTurn t { s with draws := n }) ∧
    (∀ t, t ∈ enabledTurns s ↔
      (t = .command ∧ s.commandIn ≠ []) ∨ (t = .tick ∧ s.running = true) ∨
      ∃ v, t = .complete v ∧ v < s.cfg.numVoices ∧ s.busy v = true)

/-! Encoding -/

/-- 30_encoding.md: decoding the word of a well-formed command gives the command back, every operand at every value. -/
def Obligations.DecodeInvertsEncode : Prop :=
  ∀ i : Instr, i.WellFormed → decode (encode i) = .ok i

/-- 30_encoding.md: an accepted word is the word of the command read from it, and that command is well-formed. -/
def Obligations.EncodeInvertsDecode : Prop :=
  ∀ (w : CommandWord) (i : Instr), decode w = .ok i → i.WellFormed ∧ encode i = w

/-- spec/opcode_table.json: the words the decoder accepts are exactly those of the table's rows, and no word is of two
rows. -/
def Obligations.AcceptedWordsAreTheTableRows : Prop :=
  ∀ w : CommandWord,
    ((∃ i, decode w = .ok i) ↔ ∃ r ∈ opcodeTable, r.matchesWord w = true) ∧
    ∀ r ∈ opcodeTable, ∀ q ∈ opcodeTable, r.matchesWord w = true → q.matchesWord w = true → r = q

/-- 20_memory.md R64, R66, R69: a word that arrives joins the end of the command queue and changes nothing else; eight
bytes, least significant first, carry one word over a byte-wide link to the same place, and fewer are only kept; and a
response word leaves as four bytes, least significant first. (That the word a byte completes joins the end of the one
command queue is log entry 22's.) -/
def Obligations.ByteLinkCarriesWords : Prop :=
  (∀ (s : State) (w : CommandWord), runTurn (.wordIn w) s = .next { s with commandIn := s.commandIn ++ [w] }) ∧
  (∀ (s : State) (b : Byte), s.linkBytes.length < 7 →
    runTurn (.byteIn b) s = .next { s with linkBytes := s.linkBytes ++ [b] }) ∧
  (∀ (s : State) (w : CommandWord), s.linkBytes = [] →
    RunsTo (fun _ _ => True) ((bytesOfCommand w).map .byteIn) s { s with commandIn := s.commandIn ++ [w] }) ∧
  (∀ (i : Instr) (rest : List Byte), i.WellFormed → decodeBytes (bytesOfCommand (encode i) ++ rest) = .ok (i, rest)) ∧
  ∀ w : Word, ∃ b0 b1 b2 b3 : Byte, bytesOfResponse w = [b0, b1, b2, b3] ∧ b3 ++ b2 ++ b1 ++ b0 = w

/-- 30_encoding.md R94: every example line assembles to a command whose word is the one listed, and that word decodes
to the command. -/
def Obligations.ExampleLinesGiveTheListedWords : Prop :=
  ∀ e ∈ ([ ("SETP 0, attack, 0.9s", 0x01000400000DBBA0), ("SETP 2, osc1_freq, 440Hz", 0x010200000006B6C0),
      ("SETP 0, eq[3], 0.5", 0x010023000007A120), ("SETP 1, sustain, -5", 0x01010700FFFFFFFB),
      ("SETS 0, 2, 1", 0x0200020100000000), ("SETT 240BPM", 0x030000000003A980),
      ("SETT 300BPM", 0x03000000000493E0), ("START", 0x0400000000000000), ("STOP", 0x0500000000000000),
      ("SETD 500ms", 0x060000000007A120), ("SETCFG ENV_SQUARED", 0x0700000000000001),
      ("GETP 0, loop_length", 0x08000B0000000000), ("GETS 0, 2", 0x0900020000000000),
      ("GETSTAT ERR", 0x0A00010000000000), ("CLRDIAG", 0x0B00000000000000), ("NOP", 0x0000000000000000) ] :
        List (String × CommandWord)),
    ∃ i, assembleLine e.1.toList = some [i] ∧ encode i = e.2 ∧ decode e.2 = .ok i

/-! Rejected words -/

/-- 30_encoding.md R84, 60_exceptions.md R244: a word whose OP is 0x0C or above, or with a non-zero field that R81
marks "0", changes nothing but ERR bit 1, LAST_ERR and, for OP 0x08 to 0x0A, one response 0; no other word is
malformed. -/
def Obligations.MalformedWordsRaiseBadCmd : Prop :=
  (∀ (w : CommandWord) (s : State), 0x0C ≤ (fieldOp w).toNat →
    executeWord w s = .next { s with
      err := s.err ||| 2, lastErr := fieldOp w ++ fieldI w ++ (0xFF : Byte) ++ (2 : Byte) }) ∧
  MalformedRejected 0x00 0x00FFFFFFFFFFFFFF ∧ MalformedRejected 0x01 0x000000FF00000000 ∧
  MalformedRejected 0x02 0x000000FEFFFFFFFF ∧ MalformedRejected 0x03 0x00FFFFFF00000000 ∧
  MalformedRejected 0x04 0x00FFFFFFFFFFFFFF ∧ MalformedRejected 0x05 0x00FFFFFFFFFFFFFF ∧
  MalformedRejected 0x06 0x00FFFFFF00000000 ∧ MalformedRejected 0x07 0x00FFFFFFFFFFFFFC ∧
  MalformedRejected 0x08 0x000000FFFFFFFFFF ∧ MalformedRejected 0x09 0x000000FFFFFFFFFF ∧
  MalformedRejected 0x0A 0x00FF00FFFFFFFFFF ∧ MalformedRejected 0x0B 0x00FFFFFFFFFFFFFF ∧
  ∀ w : CommandWord, (fieldOp w).toNat < 0x0C → w &&& zeroMask (fieldOp w) = 0 → ∃ i, decode w = .ok i

/-- 20_memory.md R61, 30_encoding.md R90: which voices, parameter ids, steps and status indices exist, and which
parameter each assigned id names. -/
def Obligations.IndicesThatExist : Prop :=
  (∀ (s : State) (v p : Byte), namedParam s v p = none ↔
    s.cfg.numVoices ≤ v.toNat ∨ (0x0D ≤ p.toNat ∧ p.toNat ≤ 0x1F) ∨ 0x20 + s.cfg.eqBands ≤ p.toNat) ∧
  (∀ (s : State) (v i : Byte), cellExists s v i = true ↔ v.toNat < s.cfg.numVoices ∧ i.toNat < 32) ∧
  (∀ (s : State) (i : Byte), readStatus s i = none ↔ i.toNat = 0x0F ∨ 0x10 + s.cfg.numVoices ≤ i.toNat) ∧
  (∀ c : Config, paramOfId c 0x00 = some .osc1Freq ∧ paramOfId c 0x01 = some .osc2Freq ∧
    paramOfId c 0x02 = some .volume ∧ paramOfId c 0x03 = some .gain ∧ paramOfId c 0x04 = some .attack ∧
    paramOfId c 0x05 = some .decay ∧ paramOfId c 0x06 = some .release ∧ paramOfId c 0x07 = some .sustain ∧
    paramOfId c 0x08 = some .distortion ∧ paramOfId c 0x09 = some .leftGain ∧ paramOfId c 0x0A = some .rightGain ∧
    paramOfId c 0x0B = some .loopLength ∧ paramOfId c 0x0C = some .mute) ∧
  ∀ (c : Config) (k : Nat), k < c.eqBands → c.eqBands ≤ 32 → paramOfId c (BitVec.ofNat 8 (0x20 + k)) = some (.eqGain k)

/-- 60_exceptions.md R245: a well-formed command that names a missing voice, parameter id, step or status index
changes nothing but ERR bit 2, LAST_ERR (voice as received, detail OP and I) and, for a GET, one response 0. -/
def Obligations.MissingIndicesRaiseBadAddr : Prop :=
  (∀ (s : State) (v p : Byte),
    s.cfg.numVoices ≤ v.toNat ∨ (0x0D ≤ p.toNat ∧ p.toNat ≤ 0x1F) ∨ 0x20 + s.cfg.eqBands ≤ p.toNat →
    (∀ val, exec (.setp v p val) s = .next (badAddrState 0x01 v p s)) ∧
    exec (.getp v p) s = .next (badAddrState 0x08 v p s)) ∧
  (∀ (s : State) (v i : Byte), s.cfg.numVoices ≤ v.toNat ∨ 32 ≤ i.toNat →
    (∀ b, exec (.sets v i b) s = .next (badAddrState 0x02 v i s)) ∧
    exec (.gets v i) s = .next (badAddrState 0x09 v i s)) ∧
  ∀ (s : State) (i : Byte), i.toNat = 0x0F ∨ 0x10 + s.cfg.numVoices ≤ i.toNat →
    exec (.getstat i) s = .next (badAddrState 0x0A 0x00 i s)

/-- 30_encoding.md R87: every word of OP 0x08, 0x09 or 0x0A, well-formed or not, puts exactly one word at the end of
the response port, which is 0 when the word is malformed or names what does not exist; every other word puts none. -/
def Obligations.GetClassAnswersExactlyOnce : Prop :=
  ∀ (w : CommandWord) (s : State), ∃ t, executeWord w s = .next t ∧
    (fieldOp w = 0x08 ∨ fieldOp w = 0x09 ∨ fieldOp w = 0x0A → ∃ r, t.responses = s.responses ++ [r] ∧
      ((∃ e, decode w = .error e) ∨ (∃ v p, decode w = .ok (.getp v p) ∧ namedParam s v p = none) ∨
        (∃ v k, decode w = .ok (.gets v k) ∧ cellExists s v k = false) ∨
        (∃ k, decode w = .ok (.getstat k) ∧ readStatus s k = none) → r = 0)) ∧
    (¬ (fieldOp w = 0x08 ∨ fieldOp w = 0x09 ∨ fieldOp w = 0x0A) → t.responses = s.responses)

/-! The commands: what each does when it completes, and its frame -/

/-- 46_control_commands.md R210: NOP leaves every register unchanged; any other bit set is BAD_CMD. -/
def Obligations.NopChangesNothing : Prop :=
  (∀ s : State, exec .nop s = .next s) ∧ decode 0 = .ok .nop ∧ MalformedRejected 0x00 0x00FFFFFFFFFFFFFF

/-- 46_control_commands.md R212, 10_state.md R26: SETP of an existing voice and of a field of the range table stores the
value clamped to the table's range in that one field, raises CFG_CLAMP (voice V, detail 0x01 and the id) exactly when
the value lies outside the range, and changes nothing else; an unassigned id (one in no row of the table) or a missing
voice is BAD_ADDR, and RSV or B set is BAD_CMD. -/
def Obligations.SetpStoresClampedValue : Prop :=
  (∀ (s : State) (v : Byte) (val : Word) (r : RangeRow), s.Inv → v.toNat < s.cfg.numVoices → r ∈ rangeTable s.cfg →
    ∃ t, exec (.setp v r.id val) s = .next t ∧
      (getParam r.field (t.params v.toNat) : Int) = max (r.lo : Int) (min val.toInt r.hi) ∧
      (∀ g, g ≠ r.field → getParam g (t.params v.toNat) = getParam g (s.params v.toNat)) ∧
      (t.voice v.toNat).grid = (s.voice v.toNat).grid ∧ (t.voice v.toNat).snap = (s.voice v.toNat).snap ∧
      (t.voice v.toNat).ovrCnt = (s.voice v.toNat).ovrCnt ∧
      (∀ u, u ≠ v.toNat → t.voices[u]? = s.voices[u]?) ∧
      (if val.toInt < r.lo ∨ (r.hi : Int) < val.toInt then
        t.err = s.err ||| 1 ∧ t.lastErr = (0x01 : Byte) ++ r.id ++ v ++ (1 : Byte)
       else t.err = s.err ∧ t.lastErr = s.lastErr) ∧
      t = { s with voices := t.voices, err := t.err, lastErr := t.lastErr }) ∧
  (∀ (c : Config) (p : Byte), c.Legal → (paramOfId c p = none ↔ ∀ r ∈ rangeTable c, r.id ≠ p)) ∧
  (∀ (s : State) (v p : Byte) (val : Word), s.cfg.numVoices ≤ v.toNat ∨ paramOfId s.cfg p = none →
    exec (.setp v p val) s = .next (badAddrState 0x01 v p s)) ∧
  MalformedRejected 0x01 0x000000FF00000000

/-- 46_control_commands.md R219: a GETP after a SETP of the same field answers the clamped value, whatever steps other
than a SETP of that field and a reset come between (here: any list of turns, each of which is neither). -/
def Obligations.SetpReadsBack : Prop :=
  ∀ (s t u : State) (v p : Byte) (val : Word) (f : Param) (turns : List Turn), s.Inv → v.toNat < s.cfg.numVoices →
    paramOfId s.cfg p = some f → exec (.setp v p val) s = .next t →
    RunsTo (fun a x => a ≠ .reset ∧ ¬ ∃ y, RunsCommand a x (.setp v p y)) turns t u →
    ∃ z, exec (.getp v p) u = .next z ∧
      z.responses = u.responses ++ [BitVec.ofInt 32 (max (paramLo f : Int) (min val.toInt (paramHi s.cfg f)))]

/-- 46_control_commands.md R215: SETS of an existing voice and step stores B in that one cell and changes nothing
else; a missing voice or step is BAD_ADDR; RSV or VAL set is BAD_CMD. -/
def Obligations.SetsStoresCell : Prop :=
  (∀ (s : State) (v i : Byte) (b : Bool), s.Inv → v.toNat < s.cfg.numVoices → i.toNat < 32 →
    ∃ t, exec (.sets v i b) s = .next t ∧
      t.gridCell v.toNat i.toNat = b ∧ (∀ k, k ≠ i.toNat → t.gridCell v.toNat k = s.gridCell v.toNat k) ∧
      t.params v.toNat = s.params v.toNat ∧ (t.voice v.toNat).snap = (s.voice v.toNat).snap ∧
      (t.voice v.toNat).ovrCnt = (s.voice v.toNat).ovrCnt ∧
      (∀ u, u ≠ v.toNat → t.voices[u]? = s.voices[u]?) ∧ t = { s with voices := t.voices }) ∧
  (∀ (s : State) (v i : Byte) (b : Bool), s.cfg.numVoices ≤ v.toNat ∨ 32 ≤ i.toNat →
    exec (.sets v i b) s = .next (badAddrState 0x02 v i s)) ∧
  MalformedRejected 0x02 0x000000FEFFFFFFFF

/-- 40_transport_clock.md R128: SETT stores the tempo clamped to 60000 .. 240000, raises CFG_CLAMP (no voice, detail
0x0300) exactly when it was clamped, and changes nothing else; V, I, RSV or B set is BAD_CMD. -/
def Obligations.SettStoresClampedTempo : Prop :=
  (∀ (s : State) (val : Word), exec (.sett val) s = .next { s with
    tempo := (max 60000 (min val.toInt 240000)).toNat
    err := if val.toInt < 60000 ∨ 240000 < val.toInt then s.err ||| 1 else s.err
    lastErr := if val.toInt < 60000 ∨ 240000 < val.toInt then 0x0300FF01 else s.lastErr }) ∧
  MalformedRejected 0x03 0x00FFFFFF00000000

/-- 46_control_commands.md R223: SETD stores the duration clamped to 1000 .. 10000000, raises CFG_CLAMP (no voice,
detail 0x0600) exactly when it was clamped, and changes nothing else; V, I, RSV or B set is BAD_CMD. -/
def Obligations.SetdStoresClampedDuration : Prop :=
  (∀ (s : State) (val : Word), exec (.setd val) s = .next { s with
    duration := (max 1000 (min val.toInt 10000000)).toNat
    err := if val.toInt < 1000 ∨ 10000000 < val.toInt then s.err ||| 1 else s.err
    lastErr := if val.toInt < 1000 ∨ 10000000 < val.toInt then 0x0600FF01 else s.lastErr }) ∧
  MalformedRejected 0x06 0x00FFFFFF00000000

/-- 46_control_commands.md R225: SETCFG stores its two bits and changes nothing else; with a reserved bit set, in the
word or in the operand, it changes nothing but BAD_CMD. -/
def Obligations.SetcfgStoresConfiguration : Prop :=
  (∀ (s : State) (c : Word), c &&& 0xFFFFFFFC = 0 → exec (.setcfg c) s = .next { s with config := c }) ∧
  (∀ (s : State) (c : Word), c &&& 0xFFFFFFFC ≠ 0 →
    exec (.setcfg c) s = .next { s with err := s.err ||| 2, lastErr := 0x0700FF02 }) ∧
  MalformedRejected 0x07 0x00FFFFFFFFFFFFFC

/-- 40_transport_clock.md R122: START while running changes nothing; stopped with SINK_OK it sets RUNNING and nothing
else (but the due time of the first tick, the model's `nextInterval`, log entry 8); stopped without SINK_OK it raises
DEV_UNAVAIL and nothing else; a non-zero field is BAD_CMD. -/
def Obligations.StartRunsOrRefuses : Prop :=
  (∀ s : State, s.running = true → exec .start s = .next s) ∧
  (∀ s : State, s.running = false → s.sinkOk = true →
    ∃ t, exec .start s = .next t ∧ t = { s with running := true, nextInterval := t.nextInterval }) ∧
  (∀ s : State, s.running = false → s.sinkOk = false →
    exec .start s = .next { s with err := s.err ||| 8, lastErr := 0x0400FF04 }) ∧
  MalformedRejected 0x04 0x00FFFFFFFFFFFFFF

/-- 40_transport_clock.md R125: STOP while running clears RUNNING, adds one to EPOCH modulo 2^32 and changes nothing
else; while stopped it changes nothing; a non-zero field is BAD_CMD. -/
def Obligations.StopClearsRunningAndCountsEpoch : Prop :=
  (∀ s : State, s.running = true → exec .stop s = .next { s with running := false, epoch := s.epoch + 1 }) ∧
  (∀ s : State, s.running = false → exec .stop s = .next s) ∧
  MalformedRejected 0x05 0x00FFFFFFFFFFFFFF

/-- 46_control_commands.md R218: GETP of an existing voice and parameter answers the field and changes nothing else. -/
def Obligations.GetpRespondsField : Prop :=
  (∀ (s : State) (v p : Byte) (f : Param), v.toNat < s.cfg.numVoices → paramOfId s.cfg p = some f →
    exec (.getp v p) s = .next { s with
      responses := s.responses ++ [BitVec.ofNat 32 (getParam f (s.params v.toNat))] }) ∧
  (∀ (s : State) (v p : Byte), s.cfg.numVoices ≤ v.toNat ∨ paramOfId s.cfg p = none →
    exec (.getp v p) s = .next (badAddrState 0x08 v p s)) ∧
  MalformedRejected 0x08 0x000000FFFFFFFFFF

/-- 46_control_commands.md R220: GETS of an existing voice and step answers the cell, 0 or 1, and changes nothing
else. -/
def Obligations.GetsRespondsCell : Prop :=
  (∀ (s : State) (v i : Byte), v.toNat < s.cfg.numVoices → i.toNat < 32 →
    exec (.gets v i) s = .next { s with
      responses := s.responses ++ [if s.gridCell v.toNat i.toNat then 1 else 0] }) ∧
  (∀ (s : State) (v i : Byte), s.cfg.numVoices ≤ v.toNat ∨ 32 ≤ i.toNat →
    exec (.gets v i) s = .next (badAddrState 0x09 v i s)) ∧
  MalformedRejected 0x09 0x000000FFFFFFFFFF

/-- 46_control_commands.md R227: GETSTAT of a listed index answers the register and changes nothing else; an unlisted
index is BAD_ADDR. -/
def Obligations.GetstatRespondsRegister : Prop :=
  (∀ (s : State) (i : Byte) (w : Word),
    ((i = 0x00 ∧ w = statusWord s) ∨ (i = 0x01 ∧ w = s.err) ∨ (i = 0x02 ∧ w = BitVec.ofNat 32 s.tempo) ∨
     (i = 0x03 ∧ w = BitVec.ofNat 32 s.duration) ∨ (i = 0x04 ∧ w = s.config) ∨
     (i = 0x05 ∧ w = s.gstep.setWidth 32) ∨ (i = 0x06 ∧ w = (s.gstep >>> 32).setWidth 32) ∨
     (i = 0x07 ∧ w = busyWord s) ∨ (i = 0x08 ∧ w = capsWord s.cfg) ∨
     (i = 0x09 ∧ w = BitVec.ofNat 32 s.cfg.sampleRate) ∨ (i = 0x0A ∧ w = s.faultCnt) ∨ (i = 0x0B ∧ w = s.trigCnt) ∨
     (i = 0x0C ∧ w = BitVec.ofNat 32 s.cfg.eqGainMax) ∨ (i = 0x0D ∧ w = BitVec.ofNat 32 s.cfg.eqDefaultGain) ∨
     (i = 0x0E ∧ w = s.lastErr) ∨
     ∃ v, v < s.cfg.numVoices ∧ i.toNat = 0x10 + v ∧ w = (s.voice v).ovrCnt) →
    exec (.getstat i) s = .next { s with responses := s.responses ++ [w] }) ∧
  (∀ (s : State) (i : Byte), i.toNat = 0x0F ∨ 0x10 + s.cfg.numVoices ≤ i.toNat →
    exec (.getstat i) s = .next (badAddrState 0x0A 0x00 i s)) ∧
  MalformedRejected 0x0A 0x00FF00FFFFFFFFFF

/-- 10_state.md R45: the bits of the status registers STATUS, BUSY and CAPS. -/
def Obligations.StatusWordsHaveTheirBits : Prop :=
  ∀ (s : State) (k : Nat), k < 32 →
    ((statusWord s).getLsbD k = if k = 0 then s.running else if k = 1 then s.sinkOk else false) ∧
    ((busyWord s).getLsbD k = (decide (k < s.cfg.numVoices) && s.busy k)) ∧
    (s.cfg.Legal → (capsWord s.cfg).toNat = s.cfg.numVoices + 2 ^ 8 * s.cfg.eqBands + 2 ^ 16 * 32 + 2 ^ 24 * 1)

/-- 46_control_commands.md R229: CLRDIAG clears ERR, LAST_ERR, every OVR_CNT, FAULT_CNT and TRIG_CNT and changes
nothing else; any other bit set is BAD_CMD and clears nothing. -/
def Obligations.ClrdiagClearsDiagnostics : Prop :=
  (∀ s : State, ∃ t, exec .clrdiag s = .next t ∧
    t = { s with voices := t.voices, err := 0, lastErr := 0, faultCnt := 0, trigCnt := 0 } ∧
    t.voices.length = s.voices.length ∧
    ∀ v, v < s.voices.length → t.voice v = { s.voice v with ovrCnt := 0 }) ∧
  MalformedRejected 0x0B 0x00FFFFFFFFFFFFFF

/-- 20_memory.md R67: executing the same SETP, SETS, SETT, SETD or SETCFG twice leaves the same state as once. -/
def Obligations.SetCommandsAreIdempotent : Prop :=
  ∀ (i : Instr) (s t : State),
    (∃ v p x, i = .setp v p x) ∨ (∃ v k b, i = .sets v k b) ∨ (∃ x, i = .sett x) ∨ (∃ x, i = .setd x) ∨
      (∃ c, i = .setcfg c) →
    exec i s = .next t → exec i t = .next t

/-- 20_memory.md R67, 46_control_commands.md R217: a GETP, GETS or GETSTAT changes nothing but the response port; only
one that names what does not exist changes ERR and LAST_ERR as well, and its response is 0. -/
def Obligations.GetCommandsOnlyRespond : Prop :=
  ∀ (i : Instr) (s : State), (∃ v p, i = .getp v p) ∨ (∃ v k, i = .gets v k) ∨ (∃ k, i = .getstat k) →
    let missing := (∃ v p, i = .getp v p ∧ namedParam s v p = none) ∨
      (∃ v k, i = .gets v k ∧ cellExists s v k = false) ∨ (∃ k, i = .getstat k ∧ readStatus s k = none)
    ∃ t, exec i s = .next t ∧
      (¬ missing → ∃ r, t = { s with responses := s.responses ++ [r] }) ∧
      (missing → t = { s with responses := s.responses ++ [0], err := s.err ||| 4, lastErr := t.lastErr })

/-! Rules about the whole machine -/

/-- 60_exceptions.md R240, R252: no step of any agent stops the block: every step answers a next state. -/
def Obligations.BlockNeverStops : Prop :=
  ∀ s : State, ∃ t, step s = .next t

/-- 10_state.md R41: a flag of ERR, once set, stays set over every step but a CLRDIAG and a reset. -/
def Obligations.ErrorFlagsAreSticky : Prop :=
  ∀ (s u t : State) (a : Turn) (k : Nat), nextTurn s = some (a, u) → runTurn a u = .next t →
    a ≠ .reset → ¬ RunsCommand a u .clrdiag → s.err.getLsbD k = true → t.err.getLsbD k = true

/-- 10_state.md R32 to R38, R47, 40_transport_clock.md R114: each control register has its writers. RUNNING changes
only by START, STOP and reset; TEMPO by SETT; DURATION by SETD; CONFIG by SETCFG; EPOCH by STOP (and reset, each); and
SINK_OK by reset alone. GSTEP changes by a tick, by exactly one, and by reset. The parameters of the machine never
change. -/
def Obligations.ControlRegistersHaveTheirWriters : Prop :=
  ∀ (s u t : State) (a : Turn), nextTurn s = some (a, u) → runTurn a u = .next t →
    t.cfg = s.cfg ∧
    (a ≠ .reset →
      (t.running ≠ s.running → RunsCommand a u .start ∨ RunsCommand a u .stop) ∧
      (t.tempo ≠ s.tempo → ∃ x, RunsCommand a u (.sett x)) ∧
      (t.duration ≠ s.duration → ∃ x, RunsCommand a u (.setd x)) ∧
      (t.config ≠ s.config → ∃ c, RunsCommand a u (.setcfg c)) ∧
      (t.epoch ≠ s.epoch → RunsCommand a u .stop) ∧
      t.sinkOk = s.sinkOk ∧
      t.gstep = if a = .tick ∧ s.running = true then s.gstep + 1 else s.gstep)

/-- 10_state.md R42 to R44, 20_memory.md R72, R73, 45_mixer_quantizer.md R201: OVR_CNT changes only by a tick, FAULT_CNT
only by a completion, TRIG_CNT only by a tick, and each also by CLRDIAG and reset. The sink port changes only by a
completion of a voice, which adds that voice's render at its end, and by the sink, which takes the oldest record; the
response port only by a GET-class word, which adds one response at its end, by the host, which takes the oldest, and by
reset. (That the ports are queues, so that the sink takes the oldest record of one, is log entry 15's.) -/
def Obligations.CountersHaveTheirWriters : Prop :=
  ∀ (s u t : State) (a : Turn), nextTurn s = some (a, u) → runTurn a u = .next t → a ≠ .reset →
    (¬ RunsCommand a u .clrdiag →
      (∀ v, (t.voice v).ovrCnt ≠ (s.voice v).ovrCnt → a = .tick) ∧
      (t.faultCnt ≠ s.faultCnt → ∃ v, a = .complete v) ∧
      (t.trigCnt ≠ s.trigCnt → a = .tick)) ∧
    (a = .recordOut → t.delivered = s.delivered.tail) ∧
    (a ≠ .recordOut → t.delivered ≠ s.delivered → ∃ v sn, a = .complete v ∧ (s.voice v).snap = some sn ∧
      t.delivered = s.delivered ++ [render s.cfg v sn]) ∧
    (a = .responseOut → t.responses = s.responses.tail) ∧
    (a ≠ .responseOut → t.responses ≠ s.responses → ∃ w rest r, a = .command ∧ s.commandIn = w :: rest ∧
      (fieldOp w = 0x08 ∨ fieldOp w = 0x09 ∨ fieldOp w = 0x0A) ∧ t.responses = s.responses ++ [r])

/-- 10_state.md R24, R30: a voice's parameters change only by a SETP to that voice and reset, its grid only by a SETS
to that voice and reset. -/
def Obligations.ParametersAndGridHaveTheirWriters : Prop :=
  ∀ (s u t : State) (a : Turn) (v : Nat), nextTurn s = some (a, u) → runTurn a u = .next t → a ≠ .reset →
    (t.params v ≠ s.params v → ∃ x p val, x.toNat = v ∧ RunsCommand a u (.setp x p val)) ∧
    ((t.voice v).grid ≠ (s.voice v).grid → ∃ x k b, x.toNat = v ∧ RunsCommand a u (.sets x k b))

/-- 10_state.md R40, 20_memory.md R70: a snapshot never changes while its voice is busy: any step but that voice's
completion and reset leaves it as it was. -/
def Obligations.SnapshotIsFrozenWhileBusy : Prop :=
  ∀ (s u t : State) (a : Turn) (v : Nat) (sn : Snapshot), nextTurn s = some (a, u) → runTurn a u = .next t →
    (s.voice v).snap = some sn → a ≠ .reset → a ≠ .complete v → (t.voice v).snap = some sn

/-! The tick and the renders -/

/-- 40_transport_clock.md R113, R114, R118: a tick adds one to GSTEP, sets the next interval to 15000 / TEMPO seconds,
and leaves each voice as its own decision says: not triggered, unchanged; triggered while busy, one more overrun;
triggered while free, a snapshot of the parameters, DURATION, CONFIG, EPOCH and the step. TRIG_CNT counts the accepted
triggers, and nothing else but ERR and LAST_ERR changes. -/
def Obligations.TickDecidesEveryVoice : Prop :=
  ∀ s : State, s.Inv → s.running = true → ∃ t, runTurn .tick s = .next t ∧
    t = { s with
      voices := t.voices, err := t.err, lastErr := t.lastErr
      gstep := s.gstep + 1, nextInterval := 15000 / (s.tempo : Rat)
      trigCnt := s.trigCnt + BitVec.ofNat 32 ((List.range s.cfg.numVoices).countP fun v =>
        (s.params v).mute == 0 && s.gridCell v (s.gstep.toNat % (s.params v).loopLength) && !s.busy v) } ∧
    t.voices.length = s.voices.length ∧
    ∀ v, v < s.cfg.numVoices →
      let i := s.gstep.toNat % (s.params v).loopLength
      ((¬ ((s.params v).mute = 0 ∧ s.gridCell v i = true)) → t.voice v = s.voice v) ∧
      ((s.params v).mute = 0 ∧ s.gridCell v i = true → s.busy v = true →
        t.voice v = { s.voice v with ovrCnt := BitVec.ofNat 32 (min ((s.voice v).ovrCnt.toNat + 1) (2 ^ 32 - 1)) }) ∧
      ((s.params v).mute = 0 ∧ s.gridCell v i = true → s.busy v = false →
        t.voice v =
          { s.voice v with snap := some ⟨s.params v, s.duration, s.config, s.epoch, s.gstep⟩ })

/-- 60_exceptions.md R247, R251: a tick that drops triggers sets ERR bit 4 and leaves in LAST_ERR the record of the
highest-numbered overrunning voice (code 5, that voice, bits 15:0 of the step); a tick that drops none leaves both. -/
def Obligations.TickRecordsOverruns : Prop :=
  ∀ s : State, s.Inv → s.running = true → ∃ t, runTurn .tick s = .next t ∧ t.gstep = s.gstep + 1 ∧
    let dropped := fun v => v < s.cfg.numVoices ∧ (s.params v).mute = 0 ∧
      s.gridCell v (s.gstep.toNat % (s.params v).loopLength) = true ∧ s.busy v = true
    ((∀ v, ¬ dropped v) → t.err = s.err ∧ t.lastErr = s.lastErr) ∧
    ∀ v, dropped v → (∀ u, dropped u → u ≤ v) →
      t.err = s.err ||| 16 ∧ t.lastErr = s.gstep.setWidth 16 ++ BitVec.ofNat 8 v ++ (5 : Byte)

/-- 10_state.md R31: a grid cell at or beyond a voice's loop length never changes a tick: the tick gives the same state
whether the cell is written before it or after it, and no trigger decision sees the cell. -/
def Obligations.CellsBeyondTheLoopNeverMatter : Prop :=
  ∀ (s : State) (v i : Nat) (b : Bool), s.Inv → (s.params v).loopLength ≤ i →
    tick (writeCell v i b s) = writeCell v i b (tick s) ∧
    ∀ (g : BitVec 64) (u : Nat), tickTriggers (writeCell v i b s) g u = tickTriggers s g u

/-- 45_mixer_quantizer.md R200, 60_exceptions.md R248: the completion of a busy voice clears BUSY. It fails only when
RENDER_MAY_FAIL, and then counts a fault (saturating) and records RENDER_FAULT, delivering nothing; else it delivers
the render exactly when the snapshot's epoch is EPOCH. Nothing else changes (but the model's draw index, log entry 12). -/
def Obligations.CompletionDeliversDiscardsOrFails : Prop :=
  ∀ (s : State) (v : Nat) (sn : Snapshot), v < s.voices.length → (s.voice v).snap = some sn →
    ∃ t, runTurn (.complete v) s = .next t ∧
      t.voice v = { s.voice v with snap := none } ∧ (∀ u, u ≠ v → t.voices[u]? = s.voices[u]?) ∧
      ((t = { s with voices := t.voices, draws := t.draws, delivered := t.delivered } ∧
        t.delivered = if sn.epoch = s.epoch then s.delivered ++ [render s.cfg v sn] else s.delivered) ∨
       (s.cfg.renderMayFail = true ∧
        t = { s with
          voices := t.voices, draws := t.draws
          faultCnt := BitVec.ofNat 32 (min (s.faultCnt.toNat + 1) (2 ^ 32 - 1))
          err := s.err ||| 32
          lastErr := sn.step.setWidth 16 ++ BitVec.ofNat 8 v ++ (6 : Byte) }))

/-- 40_transport_clock.md R126, 70_reset_and_hazards.md R286: a render in flight at a STOP stays in flight over every
turn but its completion, a reset and a further STOP (ticks, a later START and other voices' completions among them), and
its completion then frees the voice and delivers nothing. The render may be of any earlier epoch than the STOP's; only
after 2^32 STOPs would the epochs meet again. -/
def Obligations.StopDiscardsRendersInFlight : Prop :=
  ∀ (s t u : State) (v : Nat) (sn : Snapshot) (turns : List Turn), s.running = true → v < s.voices.length →
    (s.voice v).snap = some sn → sn.epoch ≠ s.epoch + 1 → exec .stop s = .next t →
    RunsTo (fun a x => a ≠ .complete v ∧ a ≠ .reset ∧ ¬ RunsCommand a x .stop) turns t u →
    u.busy v = true ∧ ∃ z, runTurn (.complete v) u = .next z ∧ z.busy v = false ∧ z.delivered = u.delivered

/-- 70_reset_and_hazards.md R271: reset abandons every render in flight: afterwards no voice is busy, no record was
delivered by it, and a completion changes nothing. (That the records already with the sink stay on its port is log entry
14's, and that a completion of a free voice passes is log entry 5's.) -/
def Obligations.ResetAbandonsRenders : Prop :=
  ∀ s : State, ∃ t, runTurn .reset s = .next t ∧ t.delivered = s.delivered ∧
    ∀ v, t.busy v = false ∧ runTurn (.complete v) t = .next t

/-- 41_tone_generator.md R141, 44_envelope.md R180: the envelope has exactly N = floor(dur · Fs / 10^6) values and the
delivered buffer exactly N pairs, for every snapshot. 45_mixer_quantizer.md R198, R201: the record holds the voice, the
snapshot's step, the delivered level, and pair by pair what the quantizer and the channels give of the step's samples.
00_scope.md R3, 44_envelope.md R181, 45_mixer_quantizer.md R198: the exact render's n-th sample is the level (with bit 1
of CONFIG set, else 1) times the envelope's n-th value times the distortion of the EQ of the tone of the snapshot's own
frequencies, gains and amount, in that order. -/
def Obligations.RenderKeepsItsLength : Prop :=
  ∀ (c : Config) (v : Nat) (sn : Snapshot),
    let len := sn.dur * c.sampleRate / 1000000
    (envelope c.sampleRate len sn).length = len ∧ (render c v sn).pairs.length = len ∧
    (render c v sn).voice = v ∧ (render c v sn).step = sn.step ∧ (render c v sn).level = deliveredLevel c sn ∧
    (∀ n a, (signalPath ivArith (eqStage ivArith) c.sampleRate sn)[n]? = some a →
      (render c v sn).pairs[n]? = some (pan c sn n (quantize c sn n a))) ∧
    (0 < c.sampleRate → ∀ n, n < len →
      let wave := fun f k : ℕ => Real.sin (2 * Real.pi * ((f : ℝ) / 1000) * k / c.sampleRate)
      let x := (List.range len).map fun k => (wave sn.params.osc1Freq k + wave sn.params.osc2Freq k) / 2
      let e := (spectralEq realArith sn.params.eqGain x).getD n 0
      let d := if sn.params.distortion = 0 then e
        else Real.tanh ((1 + 10 * ((sn.params.distortion : ℝ) / 1000000)) * e)
      (referencePath c.sampleRate sn)[n]? =
        some ((if sn.config.getLsbD 1 then (levelOf sn.params : ℝ) else 1) *
          (((envelope c.sampleRate len sn).getD n 0 : ℚ) : ℝ) * d))

/-- 45_mixer_quantizer.md R196: every sample of a delivered buffer lies in [-32768, 32767], for every snapshot whose
channel gains are legal, and every channel sample is no larger in magnitude than the quantized one, whichever integers
R197 admits (for a TOL in log entry 11's range). -/
def Obligations.SamplesStayInSixteenBits : Prop :=
  (∀ (c : Config) (v : Nat) (sn : Snapshot), c.Legal → sn.params.leftGain ≤ 1000000 → sn.params.rightGain ≤ 1000000 →
    ∀ p ∈ (render c v sn).pairs, (-32768 ≤ p.1 ∧ p.1 ≤ 32767) ∧ (-32768 ≤ p.2 ∧ p.2 ≤ 32767)) ∧
  ∀ (tol : ℚ) (site : RoundingSite) (x : ℝ) (g : Nat) (q : Int), 0 ≤ tol → tol ≤ 1 / 100000 → g ≤ 1000000 →
    -32768 ≤ q → q ≤ 32767 → |channel tol site (ChannelAdmitted tol x g q) g q| ≤ |q|

/-- 44_envelope.md R176: in the linear variant A + D + R ≤ N always, so nothing is truncated and nothing padded. -/
def Obligations.LinearRampsFitTheNote : Prop :=
  ∀ (fs dur a d r : Nat) (s : Rat), 0 < a + d + r →
    let n := dur * fs / 1000000
    let c := linearCounts fs dur a d r
    c.a + c.d + c.r ≤ n ∧
    linearShape n c s =
      linspace 0 1 c.a ++ linspace 1 s c.d ++ List.replicate (n - c.a - c.d - c.r) s ++ linspace s 0 c.r

/-- 44_envelope.md R177: the linear envelope starts at 0 when A ≥ 1, ends its attack at 1 when A ≥ 2, holds the sustain
level on the whole plateau, and ends at 0 when R ≥ 2, at s when R = 1. -/
def Obligations.LinearEnvelopeShape : Prop :=
  ∀ (n : Nat) (c : RampCounts) (s : Rat), c.a + c.d + c.r ≤ n →
    (1 ≤ c.a → (linearShape n c s)[0]? = some 0) ∧
    (2 ≤ c.a → (linearShape n c s)[c.a - 1]? = some 1) ∧
    (∀ k, c.a + c.d ≤ k → k < n - c.r → (linearShape n c s)[k]? = some s) ∧
    (2 ≤ c.r → (linearShape n c s)[n - 1]? = some 0) ∧
    (c.r = 1 → (linearShape n c s)[n - 1]? = some s)

/-- 44_envelope.md R172, R174, R178, R181: bit 0 of the snapshot's CONFIG selects the variant: set, the squared one with
the plain counts; clear, the linear one, normalised when the three times reach the duration. For a sustain level in
[0, 1] every envelope value lies in [0, 1], and the squared variant's segments are the squares of the linear ones with
the same counts. -/
def Obligations.EnvelopeLiesInUnitRange : Prop :=
  (∀ (fs n : Nat) (sn : Snapshot), sn.config.getLsbD 0 = true → envelope fs n sn =
    squaredShape n ⟨sn.params.attack * fs / 1000000, sn.params.decay * fs / 1000000, sn.params.release * fs / 1000000⟩
      ((sn.params.sustain : ℚ) / 1000000)) ∧
  (∀ (fs n : Nat) (sn : Snapshot), sn.config.getLsbD 0 = false →
    (1000 ≤ sn.params.attack ∧ sn.params.attack ≤ 900000) → (1000 ≤ sn.params.decay ∧ sn.params.decay ≤ 900000) →
    (1000 ≤ sn.params.release ∧ sn.params.release ≤ 900000) →
    let sum := sn.params.attack + sn.params.decay + sn.params.release
    let count := fun t : Nat =>
      if sum ≥ sn.dur then t * 99 * sn.dur * fs / (100 * sum * 1000000) else t * fs / 1000000
    envelope fs n sn = linearShape n ⟨count sn.params.attack, count sn.params.decay, count sn.params.release⟩
      ((sn.params.sustain : ℚ) / 1000000)) ∧
  (∀ (fs n : Nat) (sn : Snapshot), sn.params.sustain ≤ 1000000 → ∀ x ∈ envelope fs n sn, 0 ≤ x ∧ x ≤ 1) ∧
  ∀ (n : Nat) (c : RampCounts) (s : Rat), squaredShape n c s = (linearShape n c s).map fun x => x * x

/-! The exact signal path and its enclosures -/

/-- 42_spectral_eq.md R153: every bin lies in exactly one of the B bands: band j < B - 1 when
j·(K-1) ≤ k·B < (j+1)·(K-1), the last band from its lower edge on, the boundary bin included; one bin alone is in
band 0. -/
def Obligations.BandsPartitionTheBins : Prop :=
  (∀ b kk k : Nat, 1 ≤ b → 2 ≤ kk → k < kk →
    bandOf b kk k < b ∧
    ∀ j, j < b → (bandOf b kk k = j ↔
      j * (kk - 1) ≤ k * b ∧ (j < b - 1 → k * b < (j + 1) * (kk - 1)))) ∧
  ∀ b : Nat, bandOf b 1 0 = 0

/-- 41_tone_generator.md R142, R144: a tone sample is the mean of two unit sines at n / Fs seconds, and lies in
[-1, 1]. -/
def Obligations.ToneIsTheMeanOfTwoSines : Prop :=
  ∀ (fs f1 f2 n : ℕ), 0 < fs →
    toneSample realArith fs f1 f2 n =
      (Real.sin (2 * Real.pi * ((f1 : ℝ) / 1000) * n / fs) + Real.sin (2 * Real.pi * ((f2 : ℝ) / 1000) * n / fs)) / 2 ∧
    |toneSample realArith fs f1 f2 n| ≤ 1

/-- 42_spectral_eq.md R151: the forward bin is the discrete Fourier transform's. -/
def Obligations.ForwardTransformIsTheDft : Prop :=
  ∀ (x : List ℝ) (k : ℕ), toComplex (forwardBin realArith x k) = referenceBin x k

/-- 42_spectral_eq.md R155, R156: bin k of the gained spectrum is the gain of the band of k times the discrete Fourier
transform's bin; the inverse transform of its Hermitian extension is real at every sample; and the EQ's output is that
inverse transform, (1/N) · the sum of Z[k] · exp(2·π·i·k·n/N). -/
def Obligations.EqOutputIsReal : Prop :=
  ∀ (gains : List ℕ) (x : List ℝ) (n : ℕ), n < x.length →
    let bins := x.length / 2 + 1
    let y := fun k : ℕ => ((gains.getD (bandOf gains.length bins k) 0 : ℕ) : ℂ) / 1000000 * referenceBin x k
    let z := fun k : ℕ => if k < bins then y k else starRingEnd ℂ (y (x.length - k))
    (∀ k, k < bins → toComplex ((gainedBins realArith gains x).getD k ⟨0, 0⟩) = y k) ∧
    (inverseSample realArith (hermitian realArith x.length (gainedBins realArith gains x)) n).im = 0 ∧
    (((spectralEq realArith gains x).getD n 0 : ℝ) : ℂ) = 1 / (x.length : ℂ) *
      ∑ k ∈ Finset.range x.length, z k * Complex.exp (2 * Real.pi * Complex.I * (k : ℂ) * (n : ℂ) / (x.length : ℂ))

/-- 42_spectral_eq.md R157: with the same gain c in every band the EQ's output is c · x[n] exactly, so the step's
short cut gives what the transform gives. -/
def Obligations.UniformGainScalesTheBuffer : Prop :=
  ∀ (b c : ℕ) (x : List ℝ), 1 ≤ b →
    spectralEq realArith (List.replicate b c) x = x.map fun v => (c : ℝ) / 1000000 * v

/-- 43_distortion.md R166, R167, R168: amount 0 passes the buffer through unchanged; any other amount gives
tanh((1 + 10·a)·e[n]), which lies in the open interval (-1, 1). -/
def Obligations.DistortionBoundsOrPassesThrough : Prop :=
  (∀ (α : Type) (A : Arith α) (e : List α), distort A 0 e = e) ∧
  ∀ (amount : ℕ) (e : List ℝ), 0 < amount →
    distort realArith amount e = e.map (fun v => Real.tanh ((1 + 10 * ((amount : ℝ) / 1000000)) * v)) ∧
    ∀ d ∈ distort realArith amount e, -1 < d ∧ d < 1

/-- 45_mixer_quantizer.md R190, R192, R193: the conversion 10^(db/20) of the level's dB value gives the level back, 0 for
minus infinity. With bit 1 of the snapshot's CONFIG clear the quantizer's input is the envelope's output and the buffer
is delivered with the level, within TOL (00_scope.md R12, log entry 25); with it set the input is the level times the
envelope's output and the delivered level is exactly 1. -/
def Obligations.LevelDbConvertsBack : Prop :=
  (∀ p : VoiceParams, dbToLinear (levelDb (levelOf p : ℝ)) = (levelOf p : ℝ) ∧
    (levelOf p : ℝ) = (p.volume : ℝ) / 1000000 * ((p.gain : ℝ) / 1000000)) ∧
  ∀ (c : Config) (sn : Snapshot) (m : List ℝ),
    (sn.config.getLsbD 1 = false → mixLevel realArith sn m = m ∧
      |deliveredLevel c sn - levelOf sn.params| ≤ tolerance c.numerics * levelOf sn.params) ∧
    (sn.config.getLsbD 1 = true → mixLevel realArith sn m = m.map (fun x => (levelOf sn.params : ℝ) * x) ∧
      deliveredLevel c sn = 1)

/-- Log entry 20: the step's sine encloses the exact sine at every rational angle, within 10^-38. -/
def Obligations.SineIsEnclosed : Prop :=
  ∀ r : ℚ, Encloses (ivSinTurn r) (Real.sin (2 * Real.pi * (r : ℝ))) ∧
    (ivSinTurn r).hi - (ivSinTurn r).lo ≤ 1 / 10 ^ 38

/-- Log entry 20: the step's tanh encloses the exact tanh of every value of its argument's interval, and its interval is
wider than the argument's by at most 10^-17. -/
def Obligations.TanhIsEnclosed : Prop :=
  (∀ (a : Iv) (x : ℝ), Encloses a x → Encloses (ivTanh a) (Real.tanh x)) ∧
  ∀ a : Iv, a.lo ≤ a.hi → (ivTanh a).hi - (ivTanh a).lo ≤ (a.hi - a.lo) + 1 / 10 ^ 17

/-- Log entries 10, 11 and 25: sample for sample, the intervals the step computes contain the exact render's quantizer
inputs, and none is wider than 10^-15, far below every legal TOL. So the record a render delivers is the exact render's:
of the same voice and step, the level within TOL of it, and as many pairs, each sample the exact one or one beside it
(00_scope.md R12, 45_mixer_quantizer.md R197, R198). -/
def Obligations.RenderEnclosesTheExactRender : Prop :=
  ∀ (c : Config) (sn : Snapshot), c.Legal → LegalSnapshot c sn →
    List.Forall₂ (fun a x => Encloses a x ∧ a.hi - a.lo ≤ 1 / 10 ^ 15)
      (signalPath ivArith (eqStage ivArith) c.sampleRate sn) (referencePath c.sampleRate sn) ∧
    ∀ v, (render c v sn).voice = (referenceRender c.sampleRate v sn).voice ∧
      (render c v sn).step = (referenceRender c.sampleRate v sn).step ∧
      |(render c v sn).level - (referenceRender c.sampleRate v sn).level| ≤
        tolerance c.numerics * (referenceRender c.sampleRate v sn).level ∧
      List.Forall₂ (fun p q => |p.1 - q.1| ≤ 1 ∧ |p.2 - q.2| ≤ 1) (render c v sn).pairs
        (referenceRender c.sampleRate v sn).pairs

/-- 45_mixer_quantizer.md R197, log entries 10 and 11. Of an exact product x in an interval: the integers R197 admits lie
between the interval's two bounds; the exact truncation is admitted; where TOL reaches less than half an integer an
admitted one differs from it by at most 1; and where the interval is no wider than TOL / 2 the integer the step takes is
admitted, whatever the free value, so it is one R197 allows and no other. Of an interval of one value, every integer
between the bounds is admitted. So, of a legal machine with legal gains, are q[n] before its clip, and left[n] and
right[n] of the product of that q[n]; and each of the three is the exact render's integer or one beside it. -/
def Obligations.QuantizerAdmitsEveryAllowedInteger : Prop :=
  (∀ (tol : ℚ) (a : Iv) (x : ℝ) (site : RoundingSite), 0 ≤ tol → tol ≤ 1 / 2 → Encloses a x →
    (∀ q, Admitted tol x q → truncLo tol a ≤ q ∧ q ≤ truncHi tol a) ∧
    Admitted tol x (truncReal x) ∧
    ((tol : ℝ) * |x| < 1 / 2 → ∀ q, Admitted tol x q → |q - truncReal x| ≤ 1) ∧
    (a.hi - a.lo ≤ tol / 2 → Admitted tol x (truncateProduct tol site (Admitted tol x) a))) ∧
  (∀ (tol p : ℚ) (q : Int), 0 ≤ tol → tol ≤ 1 / 2 → truncLo tol (ivExact p) ≤ q → q ≤ truncHi tol (ivExact p) →
    Admitted tol (p : ℝ) q) ∧
  ∀ (c : Config) (sn : Snapshot) (n : Nat) (a : Iv), c.Legal → Encloses a ((referencePath c.sampleRate sn).getD n 0) →
    a.hi - a.lo ≤ 1 / 10 ^ 15 → sn.params.leftGain ≤ 1000000 → sn.params.rightGain ≤ 1000000 →
    let q := quantize c sn n a
    let exact := referenceQuantize (referenceProduct c.sampleRate sn n)
    (∃ z, Admitted (tolerance c.numerics) (referenceProduct c.sampleRate sn n) z ∧ q = clampPcm z) ∧
    |q - exact| ≤ 1 ∧
    Admitted (tolerance c.numerics) ((channelProduct sn.params.leftGain q : ℚ) : ℝ) (pan c sn n q).1 ∧
    |(pan c sn n q).1 - (referencePan sn.params exact).1| ≤ 1 ∧
    Admitted (tolerance c.numerics) ((channelProduct sn.params.rightGain q : ℚ) : ℝ) (pan c sn n q).2 ∧
    |(pan c sn n q).2 - (referencePan sn.params exact).2| ≤ 1

/-- 46_control_commands.md R232: a save of a legal state answers every field of every voice and every cell, as they are,
and changes nothing else; and loading the document of a legal state into any legal state of the same parameters
reproduces every voice's parameters and grid. (The document's form and the order of the commands are log entry 24's.) -/
def Obligations.LoadReproducesTheSavedState : Prop :=
  (∀ s : State, s.Inv →
    execAll (saveCommands s.cfg) s =
      .next { s with responses := s.responses ++ (List.range s.cfg.numVoices).flatMap (savedWords s) } ∧
    ∀ v, v < s.cfg.numVoices →
      execAll (saveVoice s.cfg v) s = .next { s with responses := s.responses ++ savedWords s v } ∧
      (savedWords s v).map BitVec.toNat =
        (allParams s.cfg).map (fun f => getParam f (s.params v)) ++
          (List.range 32).map fun i => (s.gridCell v i).toNat) ∧
  ∀ s t : State, s.Inv → t.Inv → s.cfg = t.cfg → ∃ u, execAll (loadCommands (documentOf s)) t = .next u ∧
    ∀ v, v < s.cfg.numVoices → u.params v = s.params v ∧ (u.voice v).grid = (s.voice v).grid
end

