-- ==== Sys2Proof/Laws/Decode.lean ====
section
/-! SUPPORT. The bits and the fields of an assembled word, and what the decoder accepts. -/

namespace Sys2Proof

/-- Every bit of an assembled word (30_encoding.md R80). -/
theorem getLsbD_assemble (op v i : Byte) (b : Bool) (x : Word) (k : Nat) :
    (assemble op v i b x).getLsbD k =
      if k < 32 then x.getLsbD k else if k = 32 then b else if k < 40 then false
      else if k < 48 then i.getLsbD (k - 40) else if k < 56 then v.getLsbD (k - 48) else op.getLsbD (k - 56) := by
  unfold assemble
  simp only [BitVec.getLsbD_append, BitVec.getLsbD_ofBool]
  repeat' split
  all_goals first | rfl | omega | (simp; omega) | simp

@[simp] theorem fieldOp_assemble (op v i : Byte) (b : Bool) (x : Word) : fieldOp (assemble op v i b x) = op := by
  apply BitVec.eq_of_getLsbD_eq
  intro k hk
  simp only [fieldOp, BitVec.getLsbD_extractLsb', getLsbD_assemble]
  rw [if_neg (by omega), if_neg (by omega), if_neg (by omega), if_neg (by omega), if_neg (by omega)]
  simp [hk]

@[simp] theorem fieldV_assemble (op v i : Byte) (b : Bool) (x : Word) : fieldV (assemble op v i b x) = v := by
  apply BitVec.eq_of_getLsbD_eq
  intro k hk
  simp only [fieldV, BitVec.getLsbD_extractLsb', getLsbD_assemble]
  rw [if_neg (by omega), if_neg (by omega), if_neg (by omega), if_neg (by omega), if_pos (by omega)]
  simp [hk]

@[simp] theorem fieldI_assemble (op v i : Byte) (b : Bool) (x : Word) : fieldI (assemble op v i b x) = i := by
  apply BitVec.eq_of_getLsbD_eq
  intro k hk
  simp only [fieldI, BitVec.getLsbD_extractLsb', getLsbD_assemble]
  rw [if_neg (by omega), if_neg (by omega), if_neg (by omega), if_pos (by omega)]
  simp [hk]

@[simp] theorem fieldB_assemble (op v i : Byte) (b : Bool) (x : Word) : fieldB (assemble op v i b x) = b := by
  unfold fieldB; rw [getLsbD_assemble]; simp

@[simp] theorem fieldVal_assemble (op v i : Byte) (b : Bool) (x : Word) : fieldVal (assemble op v i b x) = x := by
  apply BitVec.eq_of_getLsbD_eq
  intro k hk
  simp only [fieldVal, BitVec.getLsbD_extractLsb', getLsbD_assemble]
  rw [if_pos (by omega)]
  simp [hk]

/-- A word is the assembly of its fields when its RSV bits are zero (30_encoding.md R80). -/
theorem assemble_fields (w : CommandWord) (h : ∀ k, 33 ≤ k → k < 40 → w.getLsbD k = false) :
    assemble (fieldOp w) (fieldV w) (fieldI w) (fieldB w) (fieldVal w) = w := by
  apply BitVec.eq_of_getLsbD_eq
  intro k hk
  simp only [getLsbD_assemble, fieldOp, fieldV, fieldI, fieldB, fieldVal, BitVec.getLsbD_extractLsb']
  repeat' split
  · simp [*]
  · subst_vars; rfl
  · exact (h k (by omega) (by omega)).symm
  · rw [show 40 + (k - 40) = k by omega]; simp; omega
  · rw [show 48 + (k - 48) = k by omega]; simp; omega
  · rw [show 56 + (k - 56) = k by omega]; simp; omega

/-- What the decoder's second check accepts (30_encoding.md R85). -/
theorem checkZeroFields_ok {w : CommandWord} {i j : Instr} :
    checkZeroFields w i = .ok j ↔ w &&& zeroMask (fieldOp w) = 0 ∧ i = j := by
  unfold checkZeroFields; split
  · simp [*]
  · rename_i h
    exact ⟨fun h' => (nomatch h'), fun h' => absurd h'.1 h⟩

/-- The decoder reads no command of another opcode than the word's. -/
theorem decode_opcode {w : CommandWord} {i : Instr} (h : decode w = .ok i) : i.opcode = fieldOp w := by
  unfold decode at h
  apply BitVec.eq_of_toNat_eq
  split at h <;> first
    | (rename_i hop; rw [hop]; obtain ⟨_, rfl⟩ := checkZeroFields_ok.mp h; rfl)
    | cases h

/-- An accepted word's zero-fields are zero (30_encoding.md R84). -/
theorem decode_zeroFields {w : CommandWord} {i : Instr} (h : decode w = .ok i) : w &&& zeroMask (fieldOp w) = 0 := by
  unfold decode at h
  split at h <;> first
    | exact (checkZeroFields_ok.mp h).1
    | cases h

/-- A word of an assigned opcode whose zero-fields are zero is accepted (30_encoding.md R83, R84). -/
theorem decode_isOk {w : CommandWord} (hop : (fieldOp w).toNat < 0x0C) (hz : w &&& zeroMask (fieldOp w) = 0) :
    ∃ i, decode w = .ok i := by
  have hcases : (fieldOp w).toNat = 0 ∨ (fieldOp w).toNat = 1 ∨ (fieldOp w).toNat = 2 ∨ (fieldOp w).toNat = 3 ∨
      (fieldOp w).toNat = 4 ∨ (fieldOp w).toNat = 5 ∨ (fieldOp w).toNat = 6 ∨ (fieldOp w).toNat = 7 ∨
      (fieldOp w).toNat = 8 ∨ (fieldOp w).toNat = 9 ∨ (fieldOp w).toNat = 10 ∨ (fieldOp w).toNat = 11 := by omega
  unfold decode
  rcases hcases with h | h | h | h | h | h | h | h | h | h | h | h <;>
    (rw [h]; exact ⟨_, checkZeroFields_ok.mpr ⟨hz, rfl⟩⟩)

/-- A malformed word is rejected, and only such a word is (30_encoding.md R84). -/
theorem decode_error_iff (w : CommandWord) :
    (∃ e, decode w = .error e) ↔ 0x0C ≤ (fieldOp w).toNat ∨ w &&& zeroMask (fieldOp w) ≠ 0 := by
  constructor
  · rintro ⟨e, he⟩
    by_contra hc
    simp only [not_or, not_le, not_not] at hc
    obtain ⟨i, hi⟩ := decode_isOk hc.1 hc.2
    rw [hi] at he; cases he
  · intro h
    cases hd : decode w with
    | error e => exact ⟨e, rfl⟩
    | ok i =>
      rcases h with h | h
      · have h1 := decode_opcode hd
        rw [← h1] at h
        cases i <;> simp [Instr.opcode] at h
      · exact absurd (decode_zeroFields hd) h

end Sys2Proof
end

