-- ==== Sys2Proof/Laws/Interval.lean ====
section
/-! SUPPORT. What each operation of the enclosures encloses, once per operation (Machine/Interval.lean). -/

namespace Sys2Proof.Machine

open Sys2Proof

/-- An exact value lies in its interval. -/
theorem ivExact_encloses (q : ℚ) : Encloses (ivExact q) (q : ℝ) := ⟨le_refl _, le_refl _⟩

/-- The sum of enclosed values is enclosed. -/
theorem ivAdd_encloses {a b : Iv} {x y : ℝ} (ha : Encloses a x) (hb : Encloses b y) :
    Encloses (ivAdd a b) (x + y) := by
  obtain ⟨h1, h2⟩ := ha; obtain ⟨h3, h4⟩ := hb
  constructor <;> simp only [ivAdd] <;> push_cast <;> linarith

/-- The negative of an enclosed value is enclosed. -/
theorem ivNeg_encloses {a : Iv} {x : ℝ} (ha : Encloses a x) : Encloses (ivNeg a) (-x) := by
  obtain ⟨h1, h2⟩ := ha
  constructor <;> simp only [ivNeg] <;> push_cast <;> linarith

/-- A rational multiple of an enclosed value is enclosed. -/
theorem ivScale_encloses (q : ℚ) {a : Iv} {x : ℝ} (ha : Encloses a x) : Encloses (ivScale q a) ((q : ℝ) * x) := by
  obtain ⟨h1, h2⟩ := ha
  unfold ivScale Encloses
  split
  · have hq : (0 : ℝ) ≤ (q : ℝ) := by exact_mod_cast ‹0 ≤ q›
    push_cast
    exact ⟨mul_le_mul_of_nonneg_left h1 hq, mul_le_mul_of_nonneg_left h2 hq⟩
  · have hq : (q : ℝ) ≤ 0 := by exact_mod_cast le_of_lt (not_le.mp ‹¬ 0 ≤ q›)
    push_cast
    exact ⟨mul_le_mul_of_nonpos_left h2 hq, mul_le_mul_of_nonpos_left h1 hq⟩

theorem cast_ratMin (a b : ℚ) : ((ratMin a b : ℚ) : ℝ) = min (a : ℝ) (b : ℝ) := by
  unfold ratMin; split
  · rw [min_eq_left]; exact_mod_cast ‹a ≤ b›
  · rw [min_eq_right]; exact_mod_cast le_of_lt (not_le.mp ‹¬ a ≤ b›)

theorem cast_ratMax (a b : ℚ) : ((ratMax a b : ℚ) : ℝ) = max (a : ℝ) (b : ℝ) := by
  unfold ratMax; split
  · rw [max_eq_right]; exact_mod_cast ‹a ≤ b›
  · rw [max_eq_left]; exact_mod_cast le_of_lt (not_le.mp ‹¬ a ≤ b›)

/-- A product with one factor between two values lies between the two products. -/
theorem mul_between {l h x y : ℝ} (h1 : l ≤ x) (h2 : x ≤ h) : min (l * y) (h * y) ≤ x * y ∧ x * y ≤ max (l * y) (h * y) := by
  rcases le_total 0 y with hy | hy
  · exact ⟨(min_le_left _ _).trans (mul_le_mul_of_nonneg_right h1 hy),
      (mul_le_mul_of_nonneg_right h2 hy).trans (le_max_right _ _)⟩
  · exact ⟨(min_le_right _ _).trans (mul_le_mul_of_nonpos_right h2 hy),
      (mul_le_mul_of_nonpos_right h1 hy).trans (le_max_left _ _)⟩

/-- The product of enclosed values is enclosed. -/
theorem ivMul_encloses {a b : Iv} {x y : ℝ} (ha : Encloses a x) (hb : Encloses b y) :
    Encloses (ivMul a b) (x * y) := by
  obtain ⟨h1, h2⟩ := ha; obtain ⟨h3, h4⟩ := hb
  obtain ⟨m1, m2⟩ := mul_between (y := y) h1 h2
  have hlo := mul_between (y := (a.lo : ℝ)) h3 h4
  have hhi := mul_between (y := (a.hi : ℝ)) h3 h4
  simp only [mul_comm _ (a.lo : ℝ), mul_comm _ (a.hi : ℝ)] at hlo hhi
  constructor
  · simp only [ivMul, cast_ratMin]; push_cast
    exact (min_le_min hlo.1 hhi.1).trans m1
  · simp only [ivMul, cast_ratMax]; push_cast
    exact m2.trans (max_le_max hlo.2 hhi.2)

/-- A value rounded down to the grid. -/
theorem gridFloor_le (q : ℚ) : gridFloor q ≤ q := by
  have h : ((q * 10 ^ 48).floor : ℚ) ≤ q * 10 ^ 48 := Int.floor_le (q * 10 ^ 48)
  unfold gridFloor
  rw [div_le_iff₀ (by norm_num)]
  exact h

theorem lt_gridFloor_add (q : ℚ) : q < gridFloor q + 1 / 10 ^ 48 := by
  have h : q * 10 ^ 48 < ((q * 10 ^ 48).floor : ℚ) + 1 := Int.lt_floor_add_one (q * 10 ^ 48)
  unfold gridFloor
  rw [← add_div, lt_div_iff₀ (by norm_num)]
  exact h

/-- A value rounded up to the grid. -/
theorem le_gridCeil (q : ℚ) : q ≤ gridCeil q := by
  have := gridFloor_le (-q)
  unfold gridCeil; linarith

theorem gridCeil_lt_add (q : ℚ) : gridCeil q < q + 1 / 10 ^ 48 := by
  have := lt_gridFloor_add (-q)
  unfold gridCeil; linarith

/-- The square of an enclosed value is enclosed where the interval is non-negative. -/
theorem ivSquare_encloses {a : Iv} {x : ℝ} (h0 : 0 ≤ a.lo) (ha : Encloses a x) : Encloses (ivSquare a) (x * x) := by
  obtain ⟨h1, h2⟩ := ha
  have hl : (0 : ℝ) ≤ (a.lo : ℝ) := by exact_mod_cast h0
  have g1 : ((gridFloor (a.lo * a.lo) : ℚ) : ℝ) ≤ (a.lo : ℝ) * a.lo := by exact_mod_cast gridFloor_le (a.lo * a.lo)
  have g2 : (a.hi : ℝ) * a.hi ≤ ((gridCeil (a.hi * a.hi) : ℚ) : ℝ) := by exact_mod_cast le_gridCeil (a.hi * a.hi)
  exact ⟨g1.trans (by nlinarith), le_trans (by nlinarith) g2⟩

end Sys2Proof.Machine
end

