-- ==== Sys2Proof/Laws/Mixer.lean ====
section
/-! SUPPORT. The small lemmas of the quantizer and the channels (Machine/Mixer.lean, Machine/Quantizer.lean). -/

namespace Sys2Proof.Machine

open Sys2Proof

/-- A clipped value is a 16-bit sample. -/
theorem clampPcm_mem (x : Int) : InPcmRange (clampPcm x) := by
  unfold clampPcm InPcmRange; split
  · omega
  · split <;> omega

/-- Clipping keeps a 16-bit sample. -/
theorem clampPcm_of_mem {x : Int} (h : InPcmRange x) : clampPcm x = x := by
  obtain ⟨h1, h2⟩ := h
  unfold clampPcm; split
  · omega
  · split <;> omega

/-- Clipping keeps the order. -/
theorem clampPcm_mono {x y : Int} (h : x ≤ y) : clampPcm x ≤ clampPcm y := by
  unfold clampPcm
  split <;> split <;> (try split) <;> (try split) <;> omega

/-- `|q|` is the absolute value. -/
theorem ratAbs_eq (q : Rat) : ratAbs q = |q| := by
  unfold ratAbs; split
  · exact (abs_of_nonneg ‹_›).symm
  · exact (abs_of_neg (not_le.mp ‹_›)).symm

/-- The truncation of a non-negative value is its floor. -/
theorem truncRat_of_nonneg {q : Rat} (h : 0 ≤ q) : truncRat q = ⌊q⌋ := by
  have : ⌊q⌋ = q.num / q.den := Rat.floor_def ..
  rw [this]
  exact Int.tdiv_eq_ediv_of_nonneg (Rat.num_nonneg.mpr h)

/-- Truncation commutes with the sign. -/
theorem truncRat_neg (q : Rat) : truncRat (-q) = -truncRat q := by
  simp [truncRat, Int.neg_tdiv]

/-- Truncation keeps the order. -/
theorem truncReal_mono {x y : ℝ} (h : x ≤ y) : truncReal x ≤ truncReal y := by
  unfold truncReal
  split <;> split
  · exact Int.floor_le_floor h
  · linarith
  · exact (Int.ceil_le.mpr (by push_cast; linarith)).trans (Int.floor_nonneg.mpr ‹_›)
  · exact Int.ceil_le_ceil h

/-- The two truncations agree. -/
theorem truncRat_eq_truncReal (q : ℚ) : truncRat q = truncReal (q : ℝ) := by
  unfold truncReal
  split
  · rw [truncRat_of_nonneg (by assumption_mod_cast), Rat.floor_cast]
  · have hq : q < 0 := by rename_i h; exact_mod_cast not_le.mp h
    have h := truncRat_neg (-q)
    rw [neg_neg] at h
    rw [h, truncRat_of_nonneg (by linarith), Rat.ceil_cast, Int.floor_neg, neg_neg]

/-- The integer a truncation gives: the one integer of the interval, or one that is admitted, or the middle's. -/
theorem truncateProduct_cases (tol : Rat) (site : RoundingSite) (admits : Int → Prop) (a : Iv) :
    (truncHi tol a ≤ truncLo tol a ∧ truncateProduct tol site admits a = truncLo tol a) ∨
    (truncLo tol a < truncHi tol a ∧ (admits (truncateProduct tol site admits a) ∨
      truncateProduct tol site admits a = truncNear a)) := by
  unfold truncateProduct; split
  · exact .inl ⟨‹_›, rfl⟩
  · refine .inr ⟨not_le.mp ‹_›, ?_⟩
    exact (@Config.truncationChoice (fun q => admits q ∨ q = truncNear a) ⟨⟨truncNear a, .inr rfl⟩⟩ site).2

/-- The level an implementation delivers is the exact one or one within TOL of it. -/
theorem roundLevel_cases (tol : Rat) (site : RoundingSite) (lv : Rat) :
    LevelAdmitted tol lv (roundLevel tol site lv) ∨ roundLevel tol site lv = lv := by
  unfold roundLevel; split
  · exact .inr rfl
  · exact (@Config.levelChoice (fun l => LevelAdmitted tol lv l ∨ l = lv) ⟨⟨lv, .inr rfl⟩⟩ site).2

/-- TOL is not negative. -/
theorem tolerance_nonneg (c : Numerics) : 0 ≤ tolerance c := by
  unfold tolerance; positivity

/-- A legal machine's TOL lies in log entry 11's range. -/
theorem tolerance_range {c : Config} (h : c.Legal) :
    1 / 1000000000 ≤ tolerance c.numerics ∧ tolerance c.numerics ≤ 1 / 100000 := by
  obtain ⟨h0, h1, h2⟩ := h.2.2.2.2.2.1
  have h0' : (0 : ℚ) < c.numerics.tolDen := by exact_mod_cast h0
  have h1' : (c.numerics.tolNum : ℚ) * 100000 ≤ c.numerics.tolDen := by exact_mod_cast h1
  have h2' : (c.numerics.tolDen : ℚ) ≤ c.numerics.tolNum * 1000000000 := by exact_mod_cast h2
  unfold tolerance
  constructor
  · rw [div_le_div_iff₀ (by norm_num) h0']; linarith
  · rw [div_le_div_iff₀ h0' (by norm_num)]; linarith

end Sys2Proof.Machine
end

