-- ==== Sys2Proof/Laws/State.lean ====
section
/-! SUPPORT. One lemma per field per update, each true by rfl: what every named update of the state does to every
field, so that no later proof unfolds a record update. -/

namespace Sys2Proof.Machine

open Sys2Proof

@[simp] theorem raiseErr_cfg (c : ErrCode) (x : Byte) (d : BitVec 16) (s : State) : (raiseErr c x d s).cfg = s.cfg := rfl
@[simp] theorem raiseErr_voices (c : ErrCode) (x : Byte) (d : BitVec 16) (s : State) : (raiseErr c x d s).voices = s.voices := rfl
@[simp] theorem raiseErr_running (c : ErrCode) (x : Byte) (d : BitVec 16) (s : State) : (raiseErr c x d s).running = s.running := rfl
@[simp] theorem raiseErr_tempo (c : ErrCode) (x : Byte) (d : BitVec 16) (s : State) : (raiseErr c x d s).tempo = s.tempo := rfl
@[simp] theorem raiseErr_gstep (c : ErrCode) (x : Byte) (d : BitVec 16) (s : State) : (raiseErr c x d s).gstep = s.gstep := rfl
@[simp] theorem raiseErr_duration (c : ErrCode) (x : Byte) (d : BitVec 16) (s : State) : (raiseErr c x d s).duration = s.duration := rfl
@[simp] theorem raiseErr_sinkOk (c : ErrCode) (x : Byte) (d : BitVec 16) (s : State) : (raiseErr c x d s).sinkOk = s.sinkOk := rfl
@[simp] theorem raiseErr_config (c : ErrCode) (x : Byte) (d : BitVec 16) (s : State) : (raiseErr c x d s).config = s.config := rfl
@[simp] theorem raiseErr_epoch (c : ErrCode) (x : Byte) (d : BitVec 16) (s : State) : (raiseErr c x d s).epoch = s.epoch := rfl
@[simp] theorem raiseErr_err (c : ErrCode) (x : Byte) (d : BitVec 16) (s : State) : (raiseErr c x d s).err = setErrFlag c s.err := rfl
@[simp] theorem raiseErr_lastErr (c : ErrCode) (x : Byte) (d : BitVec 16) (s : State) : (raiseErr c x d s).lastErr = lastErrWord c x d := rfl
@[simp] theorem raiseErr_faultCnt (c : ErrCode) (x : Byte) (d : BitVec 16) (s : State) : (raiseErr c x d s).faultCnt = s.faultCnt := rfl
@[simp] theorem raiseErr_trigCnt (c : ErrCode) (x : Byte) (d : BitVec 16) (s : State) : (raiseErr c x d s).trigCnt = s.trigCnt := rfl
@[simp] theorem raiseErr_nextInterval (c : ErrCode) (x : Byte) (d : BitVec 16) (s : State) : (raiseErr c x d s).nextInterval = s.nextInterval := rfl
@[simp] theorem raiseErr_commandIn (c : ErrCode) (x : Byte) (d : BitVec 16) (s : State) : (raiseErr c x d s).commandIn = s.commandIn := rfl
@[simp] theorem raiseErr_linkBytes (c : ErrCode) (x : Byte) (d : BitVec 16) (s : State) : (raiseErr c x d s).linkBytes = s.linkBytes := rfl
@[simp] theorem raiseErr_responses (c : ErrCode) (x : Byte) (d : BitVec 16) (s : State) : (raiseErr c x d s).responses = s.responses := rfl
@[simp] theorem raiseErr_delivered (c : ErrCode) (x : Byte) (d : BitVec 16) (s : State) : (raiseErr c x d s).delivered = s.delivered := rfl
@[simp] theorem raiseErr_sinkReady (c : ErrCode) (x : Byte) (d : BitVec 16) (s : State) : (raiseErr c x d s).sinkReady = s.sinkReady := rfl
@[simp] theorem raiseErr_schedule (c : ErrCode) (x : Byte) (d : BitVec 16) (s : State) : (raiseErr c x d s).schedule = s.schedule := rfl
@[simp] theorem raiseErr_draws (c : ErrCode) (x : Byte) (d : BitVec 16) (s : State) : (raiseErr c x d s).draws = s.draws := rfl

@[simp] theorem respond_cfg (w : Word) (s : State) : (respond w s).cfg = s.cfg := rfl
@[simp] theorem respond_voices (w : Word) (s : State) : (respond w s).voices = s.voices := rfl
@[simp] theorem respond_running (w : Word) (s : State) : (respond w s).running = s.running := rfl
@[simp] theorem respond_tempo (w : Word) (s : State) : (respond w s).tempo = s.tempo := rfl
@[simp] theorem respond_gstep (w : Word) (s : State) : (respond w s).gstep = s.gstep := rfl
@[simp] theorem respond_duration (w : Word) (s : State) : (respond w s).duration = s.duration := rfl
@[simp] theorem respond_sinkOk (w : Word) (s : State) : (respond w s).sinkOk = s.sinkOk := rfl
@[simp] theorem respond_config (w : Word) (s : State) : (respond w s).config = s.config := rfl
@[simp] theorem respond_epoch (w : Word) (s : State) : (respond w s).epoch = s.epoch := rfl
@[simp] theorem respond_err (w : Word) (s : State) : (respond w s).err = s.err := rfl
@[simp] theorem respond_lastErr (w : Word) (s : State) : (respond w s).lastErr = s.lastErr := rfl
@[simp] theorem respond_faultCnt (w : Word) (s : State) : (respond w s).faultCnt = s.faultCnt := rfl
@[simp] theorem respond_trigCnt (w : Word) (s : State) : (respond w s).trigCnt = s.trigCnt := rfl
@[simp] theorem respond_nextInterval (w : Word) (s : State) : (respond w s).nextInterval = s.nextInterval := rfl
@[simp] theorem respond_commandIn (w : Word) (s : State) : (respond w s).commandIn = s.commandIn := rfl
@[simp] theorem respond_linkBytes (w : Word) (s : State) : (respond w s).linkBytes = s.linkBytes := rfl
@[simp] theorem respond_responses (w : Word) (s : State) : (respond w s).responses = s.responses ++ [w] := rfl
@[simp] theorem respond_delivered (w : Word) (s : State) : (respond w s).delivered = s.delivered := rfl
@[simp] theorem respond_sinkReady (w : Word) (s : State) : (respond w s).sinkReady = s.sinkReady := rfl
@[simp] theorem respond_schedule (w : Word) (s : State) : (respond w s).schedule = s.schedule := rfl
@[simp] theorem respond_draws (w : Word) (s : State) : (respond w s).draws = s.draws := rfl

@[simp] theorem updateVoice_cfg (v : Nat) (f : Voice → Voice) (s : State) : (updateVoice v f s).cfg = s.cfg := rfl
@[simp] theorem updateVoice_voices (v : Nat) (f : Voice → Voice) (s : State) : (updateVoice v f s).voices = s.voices.modify v f := rfl
@[simp] theorem updateVoice_running (v : Nat) (f : Voice → Voice) (s : State) : (updateVoice v f s).running = s.running := rfl
@[simp] theorem updateVoice_tempo (v : Nat) (f : Voice → Voice) (s : State) : (updateVoice v f s).tempo = s.tempo := rfl
@[simp] theorem updateVoice_gstep (v : Nat) (f : Voice → Voice) (s : State) : (updateVoice v f s).gstep = s.gstep := rfl
@[simp] theorem updateVoice_duration (v : Nat) (f : Voice → Voice) (s : State) : (updateVoice v f s).duration = s.duration := rfl
@[simp] theorem updateVoice_sinkOk (v : Nat) (f : Voice → Voice) (s : State) : (updateVoice v f s).sinkOk = s.sinkOk := rfl
@[simp] theorem updateVoice_config (v : Nat) (f : Voice → Voice) (s : State) : (updateVoice v f s).config = s.config := rfl
@[simp] theorem updateVoice_epoch (v : Nat) (f : Voice → Voice) (s : State) : (updateVoice v f s).epoch = s.epoch := rfl
@[simp] theorem updateVoice_err (v : Nat) (f : Voice → Voice) (s : State) : (updateVoice v f s).err = s.err := rfl
@[simp] theorem updateVoice_lastErr (v : Nat) (f : Voice → Voice) (s : State) : (updateVoice v f s).lastErr = s.lastErr := rfl
@[simp] theorem updateVoice_faultCnt (v : Nat) (f : Voice → Voice) (s : State) : (updateVoice v f s).faultCnt = s.faultCnt := rfl
@[simp] theorem updateVoice_trigCnt (v : Nat) (f : Voice → Voice) (s : State) : (updateVoice v f s).trigCnt = s.trigCnt := rfl
@[simp] theorem updateVoice_nextInterval (v : Nat) (f : Voice → Voice) (s : State) : (updateVoice v f s).nextInterval = s.nextInterval := rfl
@[simp] theorem updateVoice_commandIn (v : Nat) (f : Voice → Voice) (s : State) : (updateVoice v f s).commandIn = s.commandIn := rfl
@[simp] theorem updateVoice_linkBytes (v : Nat) (f : Voice → Voice) (s : State) : (updateVoice v f s).linkBytes = s.linkBytes := rfl
@[simp] theorem updateVoice_responses (v : Nat) (f : Voice → Voice) (s : State) : (updateVoice v f s).responses = s.responses := rfl
@[simp] theorem updateVoice_delivered (v : Nat) (f : Voice → Voice) (s : State) : (updateVoice v f s).delivered = s.delivered := rfl
@[simp] theorem updateVoice_sinkReady (v : Nat) (f : Voice → Voice) (s : State) : (updateVoice v f s).sinkReady = s.sinkReady := rfl
@[simp] theorem updateVoice_schedule (v : Nat) (f : Voice → Voice) (s : State) : (updateVoice v f s).schedule = s.schedule := rfl
@[simp] theorem updateVoice_draws (v : Nat) (f : Voice → Voice) (s : State) : (updateVoice v f s).draws = s.draws := rfl

@[simp] theorem writeParam_cfg (v : Nat) (f : Param) (x : Nat) (s : State) : (writeParam v f x s).cfg = s.cfg := rfl
@[simp] theorem writeParam_voices (v : Nat) (f : Param) (x : Nat) (s : State) : (writeParam v f x s).voices = s.voices.modify v (fun c => { c with params := setParam f x c.params }) := rfl
@[simp] theorem writeParam_running (v : Nat) (f : Param) (x : Nat) (s : State) : (writeParam v f x s).running = s.running := rfl
@[simp] theorem writeParam_tempo (v : Nat) (f : Param) (x : Nat) (s : State) : (writeParam v f x s).tempo = s.tempo := rfl
@[simp] theorem writeParam_gstep (v : Nat) (f : Param) (x : Nat) (s : State) : (writeParam v f x s).gstep = s.gstep := rfl
@[simp] theorem writeParam_duration (v : Nat) (f : Param) (x : Nat) (s : State) : (writeParam v f x s).duration = s.duration := rfl
@[simp] theorem writeParam_sinkOk (v : Nat) (f : Param) (x : Nat) (s : State) : (writeParam v f x s).sinkOk = s.sinkOk := rfl
@[simp] theorem writeParam_config (v : Nat) (f : Param) (x : Nat) (s : State) : (writeParam v f x s).config = s.config := rfl
@[simp] theorem writeParam_epoch (v : Nat) (f : Param) (x : Nat) (s : State) : (writeParam v f x s).epoch = s.epoch := rfl
@[simp] theorem writeParam_err (v : Nat) (f : Param) (x : Nat) (s : State) : (writeParam v f x s).err = s.err := rfl
@[simp] theorem writeParam_lastErr (v : Nat) (f : Param) (x : Nat) (s : State) : (writeParam v f x s).lastErr = s.lastErr := rfl
@[simp] theorem writeParam_faultCnt (v : Nat) (f : Param) (x : Nat) (s : State) : (writeParam v f x s).faultCnt = s.faultCnt := rfl
@[simp] theorem writeParam_trigCnt (v : Nat) (f : Param) (x : Nat) (s : State) : (writeParam v f x s).trigCnt = s.trigCnt := rfl
@[simp] theorem writeParam_nextInterval (v : Nat) (f : Param) (x : Nat) (s : State) : (writeParam v f x s).nextInterval = s.nextInterval := rfl
@[simp] theorem writeParam_commandIn (v : Nat) (f : Param) (x : Nat) (s : State) : (writeParam v f x s).commandIn = s.commandIn := rfl
@[simp] theorem writeParam_linkBytes (v : Nat) (f : Param) (x : Nat) (s : State) : (writeParam v f x s).linkBytes = s.linkBytes := rfl
@[simp] theorem writeParam_responses (v : Nat) (f : Param) (x : Nat) (s : State) : (writeParam v f x s).responses = s.responses := rfl
@[simp] theorem writeParam_delivered (v : Nat) (f : Param) (x : Nat) (s : State) : (writeParam v f x s).delivered = s.delivered := rfl
@[simp] theorem writeParam_sinkReady (v : Nat) (f : Param) (x : Nat) (s : State) : (writeParam v f x s).sinkReady = s.sinkReady := rfl
@[simp] theorem writeParam_schedule (v : Nat) (f : Param) (x : Nat) (s : State) : (writeParam v f x s).schedule = s.schedule := rfl
@[simp] theorem writeParam_draws (v : Nat) (f : Param) (x : Nat) (s : State) : (writeParam v f x s).draws = s.draws := rfl

@[simp] theorem writeCell_cfg (v i : Nat) (b : Bool) (s : State) : (writeCell v i b s).cfg = s.cfg := rfl
@[simp] theorem writeCell_voices (v i : Nat) (b : Bool) (s : State) : (writeCell v i b s).voices = s.voices.modify v (fun c => { c with grid := c.grid.setIfInBounds i b }) := rfl
@[simp] theorem writeCell_running (v i : Nat) (b : Bool) (s : State) : (writeCell v i b s).running = s.running := rfl
@[simp] theorem writeCell_tempo (v i : Nat) (b : Bool) (s : State) : (writeCell v i b s).tempo = s.tempo := rfl
@[simp] theorem writeCell_gstep (v i : Nat) (b : Bool) (s : State) : (writeCell v i b s).gstep = s.gstep := rfl
@[simp] theorem writeCell_duration (v i : Nat) (b : Bool) (s : State) : (writeCell v i b s).duration = s.duration := rfl
@[simp] theorem writeCell_sinkOk (v i : Nat) (b : Bool) (s : State) : (writeCell v i b s).sinkOk = s.sinkOk := rfl
@[simp] theorem writeCell_config (v i : Nat) (b : Bool) (s : State) : (writeCell v i b s).config = s.config := rfl
@[simp] theorem writeCell_epoch (v i : Nat) (b : Bool) (s : State) : (writeCell v i b s).epoch = s.epoch := rfl
@[simp] theorem writeCell_err (v i : Nat) (b : Bool) (s : State) : (writeCell v i b s).err = s.err := rfl
@[simp] theorem writeCell_lastErr (v i : Nat) (b : Bool) (s : State) : (writeCell v i b s).lastErr = s.lastErr := rfl
@[simp] theorem writeCell_faultCnt (v i : Nat) (b : Bool) (s : State) : (writeCell v i b s).faultCnt = s.faultCnt := rfl
@[simp] theorem writeCell_trigCnt (v i : Nat) (b : Bool) (s : State) : (writeCell v i b s).trigCnt = s.trigCnt := rfl
@[simp] theorem writeCell_nextInterval (v i : Nat) (b : Bool) (s : State) : (writeCell v i b s).nextInterval = s.nextInterval := rfl
@[simp] theorem writeCell_commandIn (v i : Nat) (b : Bool) (s : State) : (writeCell v i b s).commandIn = s.commandIn := rfl
@[simp] theorem writeCell_linkBytes (v i : Nat) (b : Bool) (s : State) : (writeCell v i b s).linkBytes = s.linkBytes := rfl
@[simp] theorem writeCell_responses (v i : Nat) (b : Bool) (s : State) : (writeCell v i b s).responses = s.responses := rfl
@[simp] theorem writeCell_delivered (v i : Nat) (b : Bool) (s : State) : (writeCell v i b s).delivered = s.delivered := rfl
@[simp] theorem writeCell_sinkReady (v i : Nat) (b : Bool) (s : State) : (writeCell v i b s).sinkReady = s.sinkReady := rfl
@[simp] theorem writeCell_schedule (v i : Nat) (b : Bool) (s : State) : (writeCell v i b s).schedule = s.schedule := rfl
@[simp] theorem writeCell_draws (v i : Nat) (b : Bool) (s : State) : (writeCell v i b s).draws = s.draws := rfl

@[simp] theorem writeSnap_cfg (v : Nat) (o : Option Snapshot) (s : State) : (writeSnap v o s).cfg = s.cfg := rfl
@[simp] theorem writeSnap_voices (v : Nat) (o : Option Snapshot) (s : State) : (writeSnap v o s).voices = s.voices.modify v (fun c => { c with snap := o }) := rfl
@[simp] theorem writeSnap_running (v : Nat) (o : Option Snapshot) (s : State) : (writeSnap v o s).running = s.running := rfl
@[simp] theorem writeSnap_tempo (v : Nat) (o : Option Snapshot) (s : State) : (writeSnap v o s).tempo = s.tempo := rfl
@[simp] theorem writeSnap_gstep (v : Nat) (o : Option Snapshot) (s : State) : (writeSnap v o s).gstep = s.gstep := rfl
@[simp] theorem writeSnap_duration (v : Nat) (o : Option Snapshot) (s : State) : (writeSnap v o s).duration = s.duration := rfl
@[simp] theorem writeSnap_sinkOk (v : Nat) (o : Option Snapshot) (s : State) : (writeSnap v o s).sinkOk = s.sinkOk := rfl
@[simp] theorem writeSnap_config (v : Nat) (o : Option Snapshot) (s : State) : (writeSnap v o s).config = s.config := rfl
@[simp] theorem writeSnap_epoch (v : Nat) (o : Option Snapshot) (s : State) : (writeSnap v o s).epoch = s.epoch := rfl
@[simp] theorem writeSnap_err (v : Nat) (o : Option Snapshot) (s : State) : (writeSnap v o s).err = s.err := rfl
@[simp] theorem writeSnap_lastErr (v : Nat) (o : Option Snapshot) (s : State) : (writeSnap v o s).lastErr = s.lastErr := rfl
@[simp] theorem writeSnap_faultCnt (v : Nat) (o : Option Snapshot) (s : State) : (writeSnap v o s).faultCnt = s.faultCnt := rfl
@[simp] theorem writeSnap_trigCnt (v : Nat) (o : Option Snapshot) (s : State) : (writeSnap v o s).trigCnt = s.trigCnt := rfl
@[simp] theorem writeSnap_nextInterval (v : Nat) (o : Option Snapshot) (s : State) : (writeSnap v o s).nextInterval = s.nextInterval := rfl
@[simp] theorem writeSnap_commandIn (v : Nat) (o : Option Snapshot) (s : State) : (writeSnap v o s).commandIn = s.commandIn := rfl
@[simp] theorem writeSnap_linkBytes (v : Nat) (o : Option Snapshot) (s : State) : (writeSnap v o s).linkBytes = s.linkBytes := rfl
@[simp] theorem writeSnap_responses (v : Nat) (o : Option Snapshot) (s : State) : (writeSnap v o s).responses = s.responses := rfl
@[simp] theorem writeSnap_delivered (v : Nat) (o : Option Snapshot) (s : State) : (writeSnap v o s).delivered = s.delivered := rfl
@[simp] theorem writeSnap_sinkReady (v : Nat) (o : Option Snapshot) (s : State) : (writeSnap v o s).sinkReady = s.sinkReady := rfl
@[simp] theorem writeSnap_schedule (v : Nat) (o : Option Snapshot) (s : State) : (writeSnap v o s).schedule = s.schedule := rfl
@[simp] theorem writeSnap_draws (v : Nat) (o : Option Snapshot) (s : State) : (writeSnap v o s).draws = s.draws := rfl

@[simp] theorem countOverrun_cfg (v : Nat) (s : State) : (countOverrun v s).cfg = s.cfg := rfl
@[simp] theorem countOverrun_voices (v : Nat) (s : State) : (countOverrun v s).voices = s.voices.modify v (fun c => { c with ovrCnt := saturatingSucc c.ovrCnt }) := rfl
@[simp] theorem countOverrun_running (v : Nat) (s : State) : (countOverrun v s).running = s.running := rfl
@[simp] theorem countOverrun_tempo (v : Nat) (s : State) : (countOverrun v s).tempo = s.tempo := rfl
@[simp] theorem countOverrun_gstep (v : Nat) (s : State) : (countOverrun v s).gstep = s.gstep := rfl
@[simp] theorem countOverrun_duration (v : Nat) (s : State) : (countOverrun v s).duration = s.duration := rfl
@[simp] theorem countOverrun_sinkOk (v : Nat) (s : State) : (countOverrun v s).sinkOk = s.sinkOk := rfl
@[simp] theorem countOverrun_config (v : Nat) (s : State) : (countOverrun v s).config = s.config := rfl
@[simp] theorem countOverrun_epoch (v : Nat) (s : State) : (countOverrun v s).epoch = s.epoch := rfl
@[simp] theorem countOverrun_err (v : Nat) (s : State) : (countOverrun v s).err = s.err := rfl
@[simp] theorem countOverrun_lastErr (v : Nat) (s : State) : (countOverrun v s).lastErr = s.lastErr := rfl
@[simp] theorem countOverrun_faultCnt (v : Nat) (s : State) : (countOverrun v s).faultCnt = s.faultCnt := rfl
@[simp] theorem countOverrun_trigCnt (v : Nat) (s : State) : (countOverrun v s).trigCnt = s.trigCnt := rfl
@[simp] theorem countOverrun_nextInterval (v : Nat) (s : State) : (countOverrun v s).nextInterval = s.nextInterval := rfl
@[simp] theorem countOverrun_commandIn (v : Nat) (s : State) : (countOverrun v s).commandIn = s.commandIn := rfl
@[simp] theorem countOverrun_linkBytes (v : Nat) (s : State) : (countOverrun v s).linkBytes = s.linkBytes := rfl
@[simp] theorem countOverrun_responses (v : Nat) (s : State) : (countOverrun v s).responses = s.responses := rfl
@[simp] theorem countOverrun_delivered (v : Nat) (s : State) : (countOverrun v s).delivered = s.delivered := rfl
@[simp] theorem countOverrun_sinkReady (v : Nat) (s : State) : (countOverrun v s).sinkReady = s.sinkReady := rfl
@[simp] theorem countOverrun_schedule (v : Nat) (s : State) : (countOverrun v s).schedule = s.schedule := rfl
@[simp] theorem countOverrun_draws (v : Nat) (s : State) : (countOverrun v s).draws = s.draws := rfl

@[simp] theorem deliver_cfg (r : SinkRecord) (s : State) : (deliver r s).cfg = s.cfg := rfl
@[simp] theorem deliver_voices (r : SinkRecord) (s : State) : (deliver r s).voices = s.voices := rfl
@[simp] theorem deliver_running (r : SinkRecord) (s : State) : (deliver r s).running = s.running := rfl
@[simp] theorem deliver_tempo (r : SinkRecord) (s : State) : (deliver r s).tempo = s.tempo := rfl
@[simp] theorem deliver_gstep (r : SinkRecord) (s : State) : (deliver r s).gstep = s.gstep := rfl
@[simp] theorem deliver_duration (r : SinkRecord) (s : State) : (deliver r s).duration = s.duration := rfl
@[simp] theorem deliver_sinkOk (r : SinkRecord) (s : State) : (deliver r s).sinkOk = s.sinkOk := rfl
@[simp] theorem deliver_config (r : SinkRecord) (s : State) : (deliver r s).config = s.config := rfl
@[simp] theorem deliver_epoch (r : SinkRecord) (s : State) : (deliver r s).epoch = s.epoch := rfl
@[simp] theorem deliver_err (r : SinkRecord) (s : State) : (deliver r s).err = s.err := rfl
@[simp] theorem deliver_lastErr (r : SinkRecord) (s : State) : (deliver r s).lastErr = s.lastErr := rfl
@[simp] theorem deliver_faultCnt (r : SinkRecord) (s : State) : (deliver r s).faultCnt = s.faultCnt := rfl
@[simp] theorem deliver_trigCnt (r : SinkRecord) (s : State) : (deliver r s).trigCnt = s.trigCnt := rfl
@[simp] theorem deliver_nextInterval (r : SinkRecord) (s : State) : (deliver r s).nextInterval = s.nextInterval := rfl
@[simp] theorem deliver_commandIn (r : SinkRecord) (s : State) : (deliver r s).commandIn = s.commandIn := rfl
@[simp] theorem deliver_linkBytes (r : SinkRecord) (s : State) : (deliver r s).linkBytes = s.linkBytes := rfl
@[simp] theorem deliver_responses (r : SinkRecord) (s : State) : (deliver r s).responses = s.responses := rfl
@[simp] theorem deliver_delivered (r : SinkRecord) (s : State) : (deliver r s).delivered = s.delivered ++ [r] := rfl
@[simp] theorem deliver_sinkReady (r : SinkRecord) (s : State) : (deliver r s).sinkReady = s.sinkReady := rfl
@[simp] theorem deliver_schedule (r : SinkRecord) (s : State) : (deliver r s).schedule = s.schedule := rfl
@[simp] theorem deliver_draws (r : SinkRecord) (s : State) : (deliver r s).draws = s.draws := rfl

@[simp] theorem receiveWord_cfg (w : CommandWord) (s : State) : (receiveWord w s).cfg = s.cfg := rfl
@[simp] theorem receiveWord_voices (w : CommandWord) (s : State) : (receiveWord w s).voices = s.voices := rfl
@[simp] theorem receiveWord_running (w : CommandWord) (s : State) : (receiveWord w s).running = s.running := rfl
@[simp] theorem receiveWord_tempo (w : CommandWord) (s : State) : (receiveWord w s).tempo = s.tempo := rfl
@[simp] theorem receiveWord_gstep (w : CommandWord) (s : State) : (receiveWord w s).gstep = s.gstep := rfl
@[simp] theorem receiveWord_duration (w : CommandWord) (s : State) : (receiveWord w s).duration = s.duration := rfl
@[simp] theorem receiveWord_sinkOk (w : CommandWord) (s : State) : (receiveWord w s).sinkOk = s.sinkOk := rfl
@[simp] theorem receiveWord_config (w : CommandWord) (s : State) : (receiveWord w s).config = s.config := rfl
@[simp] theorem receiveWord_epoch (w : CommandWord) (s : State) : (receiveWord w s).epoch = s.epoch := rfl
@[simp] theorem receiveWord_err (w : CommandWord) (s : State) : (receiveWord w s).err = s.err := rfl
@[simp] theorem receiveWord_lastErr (w : CommandWord) (s : State) : (receiveWord w s).lastErr = s.lastErr := rfl
@[simp] theorem receiveWord_faultCnt (w : CommandWord) (s : State) : (receiveWord w s).faultCnt = s.faultCnt := rfl
@[simp] theorem receiveWord_trigCnt (w : CommandWord) (s : State) : (receiveWord w s).trigCnt = s.trigCnt := rfl
@[simp] theorem receiveWord_nextInterval (w : CommandWord) (s : State) : (receiveWord w s).nextInterval = s.nextInterval := rfl
@[simp] theorem receiveWord_commandIn (w : CommandWord) (s : State) : (receiveWord w s).commandIn = s.commandIn ++ [w] := rfl
@[simp] theorem receiveWord_linkBytes (w : CommandWord) (s : State) : (receiveWord w s).linkBytes = s.linkBytes := rfl
@[simp] theorem receiveWord_responses (w : CommandWord) (s : State) : (receiveWord w s).responses = s.responses := rfl
@[simp] theorem receiveWord_delivered (w : CommandWord) (s : State) : (receiveWord w s).delivered = s.delivered := rfl
@[simp] theorem receiveWord_sinkReady (w : CommandWord) (s : State) : (receiveWord w s).sinkReady = s.sinkReady := rfl
@[simp] theorem receiveWord_schedule (w : CommandWord) (s : State) : (receiveWord w s).schedule = s.schedule := rfl
@[simp] theorem receiveWord_draws (w : CommandWord) (s : State) : (receiveWord w s).draws = s.draws := rfl

@[simp] theorem takeResponse_cfg (s : State) : (takeResponse s).cfg = s.cfg := rfl
@[simp] theorem takeResponse_voices (s : State) : (takeResponse s).voices = s.voices := rfl
@[simp] theorem takeResponse_running (s : State) : (takeResponse s).running = s.running := rfl
@[simp] theorem takeResponse_tempo (s : State) : (takeResponse s).tempo = s.tempo := rfl
@[simp] theorem takeResponse_gstep (s : State) : (takeResponse s).gstep = s.gstep := rfl
@[simp] theorem takeResponse_duration (s : State) : (takeResponse s).duration = s.duration := rfl
@[simp] theorem takeResponse_sinkOk (s : State) : (takeResponse s).sinkOk = s.sinkOk := rfl
@[simp] theorem takeResponse_config (s : State) : (takeResponse s).config = s.config := rfl
@[simp] theorem takeResponse_epoch (s : State) : (takeResponse s).epoch = s.epoch := rfl
@[simp] theorem takeResponse_err (s : State) : (takeResponse s).err = s.err := rfl
@[simp] theorem takeResponse_lastErr (s : State) : (takeResponse s).lastErr = s.lastErr := rfl
@[simp] theorem takeResponse_faultCnt (s : State) : (takeResponse s).faultCnt = s.faultCnt := rfl
@[simp] theorem takeResponse_trigCnt (s : State) : (takeResponse s).trigCnt = s.trigCnt := rfl
@[simp] theorem takeResponse_nextInterval (s : State) : (takeResponse s).nextInterval = s.nextInterval := rfl
@[simp] theorem takeResponse_commandIn (s : State) : (takeResponse s).commandIn = s.commandIn := rfl
@[simp] theorem takeResponse_linkBytes (s : State) : (takeResponse s).linkBytes = s.linkBytes := rfl
@[simp] theorem takeResponse_responses (s : State) : (takeResponse s).responses = s.responses.tail := rfl
@[simp] theorem takeResponse_delivered (s : State) : (takeResponse s).delivered = s.delivered := rfl
@[simp] theorem takeResponse_sinkReady (s : State) : (takeResponse s).sinkReady = s.sinkReady := rfl
@[simp] theorem takeResponse_schedule (s : State) : (takeResponse s).schedule = s.schedule := rfl
@[simp] theorem takeResponse_draws (s : State) : (takeResponse s).draws = s.draws := rfl

@[simp] theorem takeRecord_cfg (s : State) : (takeRecord s).cfg = s.cfg := rfl
@[simp] theorem takeRecord_voices (s : State) : (takeRecord s).voices = s.voices := rfl
@[simp] theorem takeRecord_running (s : State) : (takeRecord s).running = s.running := rfl
@[simp] theorem takeRecord_tempo (s : State) : (takeRecord s).tempo = s.tempo := rfl
@[simp] theorem takeRecord_gstep (s : State) : (takeRecord s).gstep = s.gstep := rfl
@[simp] theorem takeRecord_duration (s : State) : (takeRecord s).duration = s.duration := rfl
@[simp] theorem takeRecord_sinkOk (s : State) : (takeRecord s).sinkOk = s.sinkOk := rfl
@[simp] theorem takeRecord_config (s : State) : (takeRecord s).config = s.config := rfl
@[simp] theorem takeRecord_epoch (s : State) : (takeRecord s).epoch = s.epoch := rfl
@[simp] theorem takeRecord_err (s : State) : (takeRecord s).err = s.err := rfl
@[simp] theorem takeRecord_lastErr (s : State) : (takeRecord s).lastErr = s.lastErr := rfl
@[simp] theorem takeRecord_faultCnt (s : State) : (takeRecord s).faultCnt = s.faultCnt := rfl
@[simp] theorem takeRecord_trigCnt (s : State) : (takeRecord s).trigCnt = s.trigCnt := rfl
@[simp] theorem takeRecord_nextInterval (s : State) : (takeRecord s).nextInterval = s.nextInterval := rfl
@[simp] theorem takeRecord_commandIn (s : State) : (takeRecord s).commandIn = s.commandIn := rfl
@[simp] theorem takeRecord_linkBytes (s : State) : (takeRecord s).linkBytes = s.linkBytes := rfl
@[simp] theorem takeRecord_responses (s : State) : (takeRecord s).responses = s.responses := rfl
@[simp] theorem takeRecord_delivered (s : State) : (takeRecord s).delivered = s.delivered.tail := rfl
@[simp] theorem takeRecord_sinkReady (s : State) : (takeRecord s).sinkReady = s.sinkReady := rfl
@[simp] theorem takeRecord_schedule (s : State) : (takeRecord s).schedule = s.schedule := rfl
@[simp] theorem takeRecord_draws (s : State) : (takeRecord s).draws = s.draws := rfl

@[simp] theorem driveSinkReady_cfg (r : Bool) (s : State) : (driveSinkReady r s).cfg = s.cfg := rfl
@[simp] theorem driveSinkReady_voices (r : Bool) (s : State) : (driveSinkReady r s).voices = s.voices := rfl
@[simp] theorem driveSinkReady_running (r : Bool) (s : State) : (driveSinkReady r s).running = s.running := rfl
@[simp] theorem driveSinkReady_tempo (r : Bool) (s : State) : (driveSinkReady r s).tempo = s.tempo := rfl
@[simp] theorem driveSinkReady_gstep (r : Bool) (s : State) : (driveSinkReady r s).gstep = s.gstep := rfl
@[simp] theorem driveSinkReady_duration (r : Bool) (s : State) : (driveSinkReady r s).duration = s.duration := rfl
@[simp] theorem driveSinkReady_sinkOk (r : Bool) (s : State) : (driveSinkReady r s).sinkOk = s.sinkOk := rfl
@[simp] theorem driveSinkReady_config (r : Bool) (s : State) : (driveSinkReady r s).config = s.config := rfl
@[simp] theorem driveSinkReady_epoch (r : Bool) (s : State) : (driveSinkReady r s).epoch = s.epoch := rfl
@[simp] theorem driveSinkReady_err (r : Bool) (s : State) : (driveSinkReady r s).err = s.err := rfl
@[simp] theorem driveSinkReady_lastErr (r : Bool) (s : State) : (driveSinkReady r s).lastErr = s.lastErr := rfl
@[simp] theorem driveSinkReady_faultCnt (r : Bool) (s : State) : (driveSinkReady r s).faultCnt = s.faultCnt := rfl
@[simp] theorem driveSinkReady_trigCnt (r : Bool) (s : State) : (driveSinkReady r s).trigCnt = s.trigCnt := rfl
@[simp] theorem driveSinkReady_nextInterval (r : Bool) (s : State) : (driveSinkReady r s).nextInterval = s.nextInterval := rfl
@[simp] theorem driveSinkReady_commandIn (r : Bool) (s : State) : (driveSinkReady r s).commandIn = s.commandIn := rfl
@[simp] theorem driveSinkReady_linkBytes (r : Bool) (s : State) : (driveSinkReady r s).linkBytes = s.linkBytes := rfl
@[simp] theorem driveSinkReady_responses (r : Bool) (s : State) : (driveSinkReady r s).responses = s.responses := rfl
@[simp] theorem driveSinkReady_delivered (r : Bool) (s : State) : (driveSinkReady r s).delivered = s.delivered := rfl
@[simp] theorem driveSinkReady_sinkReady (r : Bool) (s : State) : (driveSinkReady r s).sinkReady = r := rfl
@[simp] theorem driveSinkReady_schedule (r : Bool) (s : State) : (driveSinkReady r s).schedule = s.schedule := rfl
@[simp] theorem driveSinkReady_draws (r : Bool) (s : State) : (driveSinkReady r s).draws = s.draws := rfl

@[simp] theorem clearDiagnostics_cfg (s : State) : (clearDiagnostics s).cfg = s.cfg := rfl
@[simp] theorem clearDiagnostics_voices (s : State) : (clearDiagnostics s).voices = s.voices.map (fun c => { c with ovrCnt := 0 }) := rfl
@[simp] theorem clearDiagnostics_running (s : State) : (clearDiagnostics s).running = s.running := rfl
@[simp] theorem clearDiagnostics_tempo (s : State) : (clearDiagnostics s).tempo = s.tempo := rfl
@[simp] theorem clearDiagnostics_gstep (s : State) : (clearDiagnostics s).gstep = s.gstep := rfl
@[simp] theorem clearDiagnostics_duration (s : State) : (clearDiagnostics s).duration = s.duration := rfl
@[simp] theorem clearDiagnostics_sinkOk (s : State) : (clearDiagnostics s).sinkOk = s.sinkOk := rfl
@[simp] theorem clearDiagnostics_config (s : State) : (clearDiagnostics s).config = s.config := rfl
@[simp] theorem clearDiagnostics_epoch (s : State) : (clearDiagnostics s).epoch = s.epoch := rfl
@[simp] theorem clearDiagnostics_err (s : State) : (clearDiagnostics s).err = 0 := rfl
@[simp] theorem clearDiagnostics_lastErr (s : State) : (clearDiagnostics s).lastErr = 0 := rfl
@[simp] theorem clearDiagnostics_faultCnt (s : State) : (clearDiagnostics s).faultCnt = 0 := rfl
@[simp] theorem clearDiagnostics_trigCnt (s : State) : (clearDiagnostics s).trigCnt = 0 := rfl
@[simp] theorem clearDiagnostics_nextInterval (s : State) : (clearDiagnostics s).nextInterval = s.nextInterval := rfl
@[simp] theorem clearDiagnostics_commandIn (s : State) : (clearDiagnostics s).commandIn = s.commandIn := rfl
@[simp] theorem clearDiagnostics_linkBytes (s : State) : (clearDiagnostics s).linkBytes = s.linkBytes := rfl
@[simp] theorem clearDiagnostics_responses (s : State) : (clearDiagnostics s).responses = s.responses := rfl
@[simp] theorem clearDiagnostics_delivered (s : State) : (clearDiagnostics s).delivered = s.delivered := rfl
@[simp] theorem clearDiagnostics_sinkReady (s : State) : (clearDiagnostics s).sinkReady = s.sinkReady := rfl
@[simp] theorem clearDiagnostics_schedule (s : State) : (clearDiagnostics s).schedule = s.schedule := rfl
@[simp] theorem clearDiagnostics_draws (s : State) : (clearDiagnostics s).draws = s.draws := rfl

@[simp] theorem acceptTrigger_cfg (v : Nat) (g : BitVec 64) (s : State) : (acceptTrigger v g s).cfg = s.cfg := rfl
@[simp] theorem acceptTrigger_voices (v : Nat) (g : BitVec 64) (s : State) : (acceptTrigger v g s).voices = s.voices.modify v (fun c => { c with snap := some (takeSnapshot s v g) }) := rfl
@[simp] theorem acceptTrigger_running (v : Nat) (g : BitVec 64) (s : State) : (acceptTrigger v g s).running = s.running := rfl
@[simp] theorem acceptTrigger_tempo (v : Nat) (g : BitVec 64) (s : State) : (acceptTrigger v g s).tempo = s.tempo := rfl
@[simp] theorem acceptTrigger_gstep (v : Nat) (g : BitVec 64) (s : State) : (acceptTrigger v g s).gstep = s.gstep := rfl
@[simp] theorem acceptTrigger_duration (v : Nat) (g : BitVec 64) (s : State) : (acceptTrigger v g s).duration = s.duration := rfl
@[simp] theorem acceptTrigger_sinkOk (v : Nat) (g : BitVec 64) (s : State) : (acceptTrigger v g s).sinkOk = s.sinkOk := rfl
@[simp] theorem acceptTrigger_config (v : Nat) (g : BitVec 64) (s : State) : (acceptTrigger v g s).config = s.config := rfl
@[simp] theorem acceptTrigger_epoch (v : Nat) (g : BitVec 64) (s : State) : (acceptTrigger v g s).epoch = s.epoch := rfl
@[simp] theorem acceptTrigger_err (v : Nat) (g : BitVec 64) (s : State) : (acceptTrigger v g s).err = s.err := rfl
@[simp] theorem acceptTrigger_lastErr (v : Nat) (g : BitVec 64) (s : State) : (acceptTrigger v g s).lastErr = s.lastErr := rfl
@[simp] theorem acceptTrigger_faultCnt (v : Nat) (g : BitVec 64) (s : State) : (acceptTrigger v g s).faultCnt = s.faultCnt := rfl
@[simp] theorem acceptTrigger_trigCnt (v : Nat) (g : BitVec 64) (s : State) : (acceptTrigger v g s).trigCnt = s.trigCnt + 1 := rfl
@[simp] theorem acceptTrigger_nextInterval (v : Nat) (g : BitVec 64) (s : State) : (acceptTrigger v g s).nextInterval = s.nextInterval := rfl
@[simp] theorem acceptTrigger_commandIn (v : Nat) (g : BitVec 64) (s : State) : (acceptTrigger v g s).commandIn = s.commandIn := rfl
@[simp] theorem acceptTrigger_linkBytes (v : Nat) (g : BitVec 64) (s : State) : (acceptTrigger v g s).linkBytes = s.linkBytes := rfl
@[simp] theorem acceptTrigger_responses (v : Nat) (g : BitVec 64) (s : State) : (acceptTrigger v g s).responses = s.responses := rfl
@[simp] theorem acceptTrigger_delivered (v : Nat) (g : BitVec 64) (s : State) : (acceptTrigger v g s).delivered = s.delivered := rfl
@[simp] theorem acceptTrigger_sinkReady (v : Nat) (g : BitVec 64) (s : State) : (acceptTrigger v g s).sinkReady = s.sinkReady := rfl
@[simp] theorem acceptTrigger_schedule (v : Nat) (g : BitVec 64) (s : State) : (acceptTrigger v g s).schedule = s.schedule := rfl
@[simp] theorem acceptTrigger_draws (v : Nat) (g : BitVec 64) (s : State) : (acceptTrigger v g s).draws = s.draws := rfl

@[simp] theorem dropTrigger_cfg (v : Nat) (g : BitVec 64) (s : State) : (dropTrigger v g s).cfg = s.cfg := rfl
@[simp] theorem dropTrigger_voices (v : Nat) (g : BitVec 64) (s : State) : (dropTrigger v g s).voices = s.voices.modify v (fun c => { c with ovrCnt := saturatingSucc c.ovrCnt }) := rfl
@[simp] theorem dropTrigger_running (v : Nat) (g : BitVec 64) (s : State) : (dropTrigger v g s).running = s.running := rfl
@[simp] theorem dropTrigger_tempo (v : Nat) (g : BitVec 64) (s : State) : (dropTrigger v g s).tempo = s.tempo := rfl
@[simp] theorem dropTrigger_gstep (v : Nat) (g : BitVec 64) (s : State) : (dropTrigger v g s).gstep = s.gstep := rfl
@[simp] theorem dropTrigger_duration (v : Nat) (g : BitVec 64) (s : State) : (dropTrigger v g s).duration = s.duration := rfl
@[simp] theorem dropTrigger_sinkOk (v : Nat) (g : BitVec 64) (s : State) : (dropTrigger v g s).sinkOk = s.sinkOk := rfl
@[simp] theorem dropTrigger_config (v : Nat) (g : BitVec 64) (s : State) : (dropTrigger v g s).config = s.config := rfl
@[simp] theorem dropTrigger_epoch (v : Nat) (g : BitVec 64) (s : State) : (dropTrigger v g s).epoch = s.epoch := rfl
@[simp] theorem dropTrigger_err (v : Nat) (g : BitVec 64) (s : State) : (dropTrigger v g s).err = setErrFlag .overrun s.err := rfl
@[simp] theorem dropTrigger_lastErr (v : Nat) (g : BitVec 64) (s : State) : (dropTrigger v g s).lastErr = lastErrWord .overrun (BitVec.ofNat 8 v) (stepDetail g) := rfl
@[simp] theorem dropTrigger_faultCnt (v : Nat) (g : BitVec 64) (s : State) : (dropTrigger v g s).faultCnt = s.faultCnt := rfl
@[simp] theorem dropTrigger_trigCnt (v : Nat) (g : BitVec 64) (s : State) : (dropTrigger v g s).trigCnt = s.trigCnt := rfl
@[simp] theorem dropTrigger_nextInterval (v : Nat) (g : BitVec 64) (s : State) : (dropTrigger v g s).nextInterval = s.nextInterval := rfl
@[simp] theorem dropTrigger_commandIn (v : Nat) (g : BitVec 64) (s : State) : (dropTrigger v g s).commandIn = s.commandIn := rfl
@[simp] theorem dropTrigger_linkBytes (v : Nat) (g : BitVec 64) (s : State) : (dropTrigger v g s).linkBytes = s.linkBytes := rfl
@[simp] theorem dropTrigger_responses (v : Nat) (g : BitVec 64) (s : State) : (dropTrigger v g s).responses = s.responses := rfl
@[simp] theorem dropTrigger_delivered (v : Nat) (g : BitVec 64) (s : State) : (dropTrigger v g s).delivered = s.delivered := rfl
@[simp] theorem dropTrigger_sinkReady (v : Nat) (g : BitVec 64) (s : State) : (dropTrigger v g s).sinkReady = s.sinkReady := rfl
@[simp] theorem dropTrigger_schedule (v : Nat) (g : BitVec 64) (s : State) : (dropTrigger v g s).schedule = s.schedule := rfl
@[simp] theorem dropTrigger_draws (v : Nat) (g : BitVec 64) (s : State) : (dropTrigger v g s).draws = s.draws := rfl

@[simp] theorem failRender_cfg (v : Nat) (sn : Snapshot) (s : State) : (failRender v sn s).cfg = s.cfg := rfl
@[simp] theorem failRender_voices (v : Nat) (sn : Snapshot) (s : State) : (failRender v sn s).voices = s.voices.modify v (fun c => { c with snap := none }) := rfl
@[simp] theorem failRender_running (v : Nat) (sn : Snapshot) (s : State) : (failRender v sn s).running = s.running := rfl
@[simp] theorem failRender_tempo (v : Nat) (sn : Snapshot) (s : State) : (failRender v sn s).tempo = s.tempo := rfl
@[simp] theorem failRender_gstep (v : Nat) (sn : Snapshot) (s : State) : (failRender v sn s).gstep = s.gstep := rfl
@[simp] theorem failRender_duration (v : Nat) (sn : Snapshot) (s : State) : (failRender v sn s).duration = s.duration := rfl
@[simp] theorem failRender_sinkOk (v : Nat) (sn : Snapshot) (s : State) : (failRender v sn s).sinkOk = s.sinkOk := rfl
@[simp] theorem failRender_config (v : Nat) (sn : Snapshot) (s : State) : (failRender v sn s).config = s.config := rfl
@[simp] theorem failRender_epoch (v : Nat) (sn : Snapshot) (s : State) : (failRender v sn s).epoch = s.epoch := rfl
@[simp] theorem failRender_err (v : Nat) (sn : Snapshot) (s : State) : (failRender v sn s).err = setErrFlag .renderFault s.err := rfl
@[simp] theorem failRender_lastErr (v : Nat) (sn : Snapshot) (s : State) : (failRender v sn s).lastErr = lastErrWord .renderFault (BitVec.ofNat 8 v) (stepDetail sn.step) := rfl
@[simp] theorem failRender_faultCnt (v : Nat) (sn : Snapshot) (s : State) : (failRender v sn s).faultCnt = saturatingSucc s.faultCnt := rfl
@[simp] theorem failRender_trigCnt (v : Nat) (sn : Snapshot) (s : State) : (failRender v sn s).trigCnt = s.trigCnt := rfl
@[simp] theorem failRender_nextInterval (v : Nat) (sn : Snapshot) (s : State) : (failRender v sn s).nextInterval = s.nextInterval := rfl
@[simp] theorem failRender_commandIn (v : Nat) (sn : Snapshot) (s : State) : (failRender v sn s).commandIn = s.commandIn := rfl
@[simp] theorem failRender_linkBytes (v : Nat) (sn : Snapshot) (s : State) : (failRender v sn s).linkBytes = s.linkBytes := rfl
@[simp] theorem failRender_responses (v : Nat) (sn : Snapshot) (s : State) : (failRender v sn s).responses = s.responses := rfl
@[simp] theorem failRender_delivered (v : Nat) (sn : Snapshot) (s : State) : (failRender v sn s).delivered = s.delivered := rfl
@[simp] theorem failRender_sinkReady (v : Nat) (sn : Snapshot) (s : State) : (failRender v sn s).sinkReady = s.sinkReady := rfl
@[simp] theorem failRender_schedule (v : Nat) (sn : Snapshot) (s : State) : (failRender v sn s).schedule = s.schedule := rfl
@[simp] theorem failRender_draws (v : Nat) (sn : Snapshot) (s : State) : (failRender v sn s).draws = s.draws := rfl

@[simp] theorem presentWord_cfg (w : CommandWord) (s : State) : (presentWord w s).cfg = s.cfg := rfl
@[simp] theorem presentWord_voices (w : CommandWord) (s : State) : (presentWord w s).voices = s.voices := rfl
@[simp] theorem presentWord_running (w : CommandWord) (s : State) : (presentWord w s).running = s.running := rfl
@[simp] theorem presentWord_tempo (w : CommandWord) (s : State) : (presentWord w s).tempo = s.tempo := rfl
@[simp] theorem presentWord_gstep (w : CommandWord) (s : State) : (presentWord w s).gstep = s.gstep := rfl
@[simp] theorem presentWord_duration (w : CommandWord) (s : State) : (presentWord w s).duration = s.duration := rfl
@[simp] theorem presentWord_sinkOk (w : CommandWord) (s : State) : (presentWord w s).sinkOk = s.sinkOk := rfl
@[simp] theorem presentWord_config (w : CommandWord) (s : State) : (presentWord w s).config = s.config := rfl
@[simp] theorem presentWord_epoch (w : CommandWord) (s : State) : (presentWord w s).epoch = s.epoch := rfl
@[simp] theorem presentWord_err (w : CommandWord) (s : State) : (presentWord w s).err = s.err := rfl
@[simp] theorem presentWord_lastErr (w : CommandWord) (s : State) : (presentWord w s).lastErr = s.lastErr := rfl
@[simp] theorem presentWord_faultCnt (w : CommandWord) (s : State) : (presentWord w s).faultCnt = s.faultCnt := rfl
@[simp] theorem presentWord_trigCnt (w : CommandWord) (s : State) : (presentWord w s).trigCnt = s.trigCnt := rfl
@[simp] theorem presentWord_nextInterval (w : CommandWord) (s : State) : (presentWord w s).nextInterval = s.nextInterval := rfl
@[simp] theorem presentWord_commandIn (w : CommandWord) (s : State) : (presentWord w s).commandIn = w :: s.commandIn := rfl
@[simp] theorem presentWord_linkBytes (w : CommandWord) (s : State) : (presentWord w s).linkBytes = s.linkBytes := rfl
@[simp] theorem presentWord_responses (w : CommandWord) (s : State) : (presentWord w s).responses = s.responses := rfl
@[simp] theorem presentWord_delivered (w : CommandWord) (s : State) : (presentWord w s).delivered = s.delivered := rfl
@[simp] theorem presentWord_sinkReady (w : CommandWord) (s : State) : (presentWord w s).sinkReady = s.sinkReady := rfl
@[simp] theorem presentWord_schedule (w : CommandWord) (s : State) : (presentWord w s).schedule = .command :: s.schedule := rfl
@[simp] theorem presentWord_draws (w : CommandWord) (s : State) : (presentWord w s).draws = s.draws := rfl

end Sys2Proof.Machine
end

