-- ==== Sys2Proof/Laws/Operands.lean ====
section
/-! SUPPORT. The small lemmas of the operand forms: clamping, parameter fields, ids, voices and cells. -/

namespace Sys2Proof.Machine

open Sys2Proof

/-- A clamped value lies in its range. -/
theorem clampRaw_mem (raw : Int) {lo hi : Nat} (h : lo ≤ hi) :
    lo ≤ clampRaw raw lo hi ∧ clampRaw raw lo hi ≤ hi := by
  unfold clampRaw; split
  · omega
  · split <;> omega

/-- A value of the range is stored as it is. -/
theorem clampRaw_of_mem {x lo hi : Nat} (h1 : lo ≤ x) (h2 : x ≤ hi) : clampRaw (x : Int) lo hi = x := by
  unfold clampRaw; split
  · omega
  · split <;> omega

/-- CFG_CLAMP is raised exactly when the value lies outside the range. -/
theorem clamped_iff (raw : Int) {lo hi : Nat} (_h : lo ≤ hi) :
    clamped raw lo hi = true ↔ raw < lo ∨ (hi : Int) < raw := by
  unfold clamped clampRaw; split
  · simp; omega
  · split
    · simp; omega
    · simp; omega

theorem paramLo_le_paramHi (c : Config) (f : Param) : paramLo f ≤ paramHi c f := by
  cases f <;> simp [paramLo, paramHi, stepCount]

/-- Reading the field just written. -/
theorem getParam_setParam_same (f : Param) (x : Nat) (r : VoiceParams)
    (h : ∀ k, f = .eqGain k → k < r.eqGain.length) : getParam f (setParam f x r) = x := by
  cases f <;> first | rfl | (simp [getParam, setParam, h _ rfl])

/-- Reading another field. -/
theorem getParam_setParam_other {f g : Param} (hne : g ≠ f) (x : Nat) (r : VoiceParams) :
    getParam g (setParam f x r) = getParam g r := by
  cases f <;> cases g <;> first | rfl | (exact absurd rfl hne) | skip
  rename_i j k
  have hjk : j ≠ k := fun h => hne (by rw [h])
  simp [getParam, setParam, hjk]

@[simp] theorem setParam_eqGain_length (f : Param) (x : Nat) (r : VoiceParams) :
    (setParam f x r).eqGain.length = r.eqGain.length := by
  cases f <;> simp [setParam]

/-- Writing a field twice leaves the second value. -/
theorem setParam_setParam (f : Param) (x y : Nat) (r : VoiceParams) :
    setParam f y (setParam f x r) = setParam f y r := by
  cases f <;> simp [setParam]

/-- Which ids are assigned, and to what (30_encoding.md R90). -/
theorem paramOfId_eq_some {c : Config} {p : Byte} {f : Param} (h : paramOfId c p = some f) :
    (∃ k, f = .eqGain k ∧ k < c.eqBands ∧ p.toNat = 0x20 + k) ∨ ((∀ k, f ≠ .eqGain k) ∧ p.toNat ≤ 0x0C) := by
  unfold paramOfId at h
  split at h <;> first
    | (rename_i hp; cases h; exact .inr ⟨by simp, by omega⟩)
    | (split at h
       · rename_i hk; cases h; exact .inl ⟨_, rfl, by omega, by omega⟩
       · cases h)

/-- An EQ gain's index is below EQ_BANDS. -/
theorem paramOfId_eqGain {c : Config} {p : Byte} {k : Nat} (h : paramOfId c p = some (.eqGain k)) :
    k < c.eqBands := by
  rcases paramOfId_eq_some h with ⟨j, hj, hlt, _⟩ | ⟨hne, _⟩
  · cases hj; exact hlt
  · exact absurd rfl (hne k)

/-- The id of the parameter an id names. -/
theorem idOfParam_paramOfId {c : Config} {p : Byte} {f : Param} (h : paramOfId c p = some f) : idOfParam f = p := by
  unfold paramOfId at h
  apply BitVec.eq_of_toNat_eq
  split at h <;> first
    | (rename_i hp; cases h; rw [hp]; rfl)
    | (split at h
       · cases h; simp only [idOfParam, BitVec.toNat_ofNat]; have := p.isLt; omega
       · cases h)

/-- Every voice's list position. -/
theorem voice_eq {s : State} {v : Nat} {x : Voice} (h : s.voices[v]? = some x) : s.voice v = x := by
  simp [State.voice, List.getD_eq_getElem?_getD, h]

theorem voice_mem {s : State} {v : Nat} (h : v < s.voices.length) : s.voice v ∈ s.voices := by
  have : s.voices[v]? = some (s.voices[v]) := List.getElem?_eq_getElem h
  rw [voice_eq this]; exact List.getElem_mem h

/-- What a changed voice reads as, and every other voice. -/
theorem voice_updateVoice (s : State) (u v : Nat) (f : Voice → Voice) :
    (updateVoice v f s).voice u = if u = v ∧ v < s.voices.length then f (s.voice v) else s.voice u := by
  simp only [State.voice, updateVoice_voices, updateVoice_cfg, List.getD_eq_getElem?_getD, List.getElem?_modify]
  by_cases huv : u = v
  · subst huv
    by_cases hu : u < s.voices.length
    · simp [hu]
    · simp [hu]
  · have : v ≠ u := fun h => huv h.symm
    simp [huv, this]

theorem voice_updateVoice_same {s : State} {v : Nat} (h : v < s.voices.length) (f : Voice → Voice) :
    (updateVoice v f s).voice v = f (s.voice v) := by simp [voice_updateVoice, h]

theorem voice_updateVoice_other {s : State} {u v : Nat} (h : u ≠ v) (f : Voice → Voice) :
    (updateVoice v f s).voice u = s.voice u := by simp [voice_updateVoice, h]

/-- A voice reads the same in two states that hold the same voices and parameters. -/
theorem voice_congr {s t : State} (hv : t.voices = s.voices) (hc : t.cfg = s.cfg) (v : Nat) :
    t.voice v = s.voice v := by simp [State.voice, hv, hc]

/-- Bit `k` of the number of a list of bits. -/
theorem testBit_natOfBits (bs : List Bool) (k : Nat) : (natOfBits bs).testBit k = bs.getD k false := by
  induction bs generalizing k with
  | nil => simp [natOfBits]
  | cons b bs ih =>
    cases k with
    | zero => cases b <;> simp [natOfBits, Nat.testBit_zero]
    | succ k =>
      have : (b.toNat + 2 * natOfBits bs) / 2 = natOfBits bs := by cases b <;> simp; omega
      simp [natOfBits, Nat.testBit_succ, this, ih]

end Sys2Proof.Machine
end

