-- ==== Sys2Proof/Laws/Ops.lean ====
section
/-! SUPPORT. What each operation with a case in it does to every field: the clamp report, the zero response of a
rejected GET, the two rejections, and storing a parameter. -/

namespace Sys2Proof.Machine

open Sys2Proof

@[simp] theorem reportClamp_cfg (raw : Int) (lo hi : Nat) (op i x : Byte) (s : State) : (reportClamp raw lo hi op i x s).cfg = s.cfg := by unfold reportClamp; split <;> rfl
@[simp] theorem reportClamp_voices (raw : Int) (lo hi : Nat) (op i x : Byte) (s : State) : (reportClamp raw lo hi op i x s).voices = s.voices := by unfold reportClamp; split <;> rfl
@[simp] theorem reportClamp_running (raw : Int) (lo hi : Nat) (op i x : Byte) (s : State) : (reportClamp raw lo hi op i x s).running = s.running := by unfold reportClamp; split <;> rfl
@[simp] theorem reportClamp_tempo (raw : Int) (lo hi : Nat) (op i x : Byte) (s : State) : (reportClamp raw lo hi op i x s).tempo = s.tempo := by unfold reportClamp; split <;> rfl
@[simp] theorem reportClamp_gstep (raw : Int) (lo hi : Nat) (op i x : Byte) (s : State) : (reportClamp raw lo hi op i x s).gstep = s.gstep := by unfold reportClamp; split <;> rfl
@[simp] theorem reportClamp_duration (raw : Int) (lo hi : Nat) (op i x : Byte) (s : State) : (reportClamp raw lo hi op i x s).duration = s.duration := by unfold reportClamp; split <;> rfl
@[simp] theorem reportClamp_sinkOk (raw : Int) (lo hi : Nat) (op i x : Byte) (s : State) : (reportClamp raw lo hi op i x s).sinkOk = s.sinkOk := by unfold reportClamp; split <;> rfl
@[simp] theorem reportClamp_config (raw : Int) (lo hi : Nat) (op i x : Byte) (s : State) : (reportClamp raw lo hi op i x s).config = s.config := by unfold reportClamp; split <;> rfl
@[simp] theorem reportClamp_epoch (raw : Int) (lo hi : Nat) (op i x : Byte) (s : State) : (reportClamp raw lo hi op i x s).epoch = s.epoch := by unfold reportClamp; split <;> rfl
@[simp] theorem reportClamp_err (raw : Int) (lo hi : Nat) (op i x : Byte) (s : State) : (reportClamp raw lo hi op i x s).err = if clamped raw lo hi then setErrFlag .cfgClamp s.err else s.err := by unfold reportClamp; split <;> rfl
@[simp] theorem reportClamp_lastErr (raw : Int) (lo hi : Nat) (op i x : Byte) (s : State) : (reportClamp raw lo hi op i x s).lastErr = if clamped raw lo hi then lastErrWord .cfgClamp x (commandDetail op i) else s.lastErr := by unfold reportClamp; split <;> rfl
@[simp] theorem reportClamp_faultCnt (raw : Int) (lo hi : Nat) (op i x : Byte) (s : State) : (reportClamp raw lo hi op i x s).faultCnt = s.faultCnt := by unfold reportClamp; split <;> rfl
@[simp] theorem reportClamp_trigCnt (raw : Int) (lo hi : Nat) (op i x : Byte) (s : State) : (reportClamp raw lo hi op i x s).trigCnt = s.trigCnt := by unfold reportClamp; split <;> rfl
@[simp] theorem reportClamp_nextInterval (raw : Int) (lo hi : Nat) (op i x : Byte) (s : State) : (reportClamp raw lo hi op i x s).nextInterval = s.nextInterval := by unfold reportClamp; split <;> rfl
@[simp] theorem reportClamp_commandIn (raw : Int) (lo hi : Nat) (op i x : Byte) (s : State) : (reportClamp raw lo hi op i x s).commandIn = s.commandIn := by unfold reportClamp; split <;> rfl
@[simp] theorem reportClamp_linkBytes (raw : Int) (lo hi : Nat) (op i x : Byte) (s : State) : (reportClamp raw lo hi op i x s).linkBytes = s.linkBytes := by unfold reportClamp; split <;> rfl
@[simp] theorem reportClamp_responses (raw : Int) (lo hi : Nat) (op i x : Byte) (s : State) : (reportClamp raw lo hi op i x s).responses = s.responses := by unfold reportClamp; split <;> rfl
@[simp] theorem reportClamp_delivered (raw : Int) (lo hi : Nat) (op i x : Byte) (s : State) : (reportClamp raw lo hi op i x s).delivered = s.delivered := by unfold reportClamp; split <;> rfl
@[simp] theorem reportClamp_sinkReady (raw : Int) (lo hi : Nat) (op i x : Byte) (s : State) : (reportClamp raw lo hi op i x s).sinkReady = s.sinkReady := by unfold reportClamp; split <;> rfl
@[simp] theorem reportClamp_schedule (raw : Int) (lo hi : Nat) (op i x : Byte) (s : State) : (reportClamp raw lo hi op i x s).schedule = s.schedule := by unfold reportClamp; split <;> rfl
@[simp] theorem reportClamp_draws (raw : Int) (lo hi : Nat) (op i x : Byte) (s : State) : (reportClamp raw lo hi op i x s).draws = s.draws := by unfold reportClamp; split <;> rfl

@[simp] theorem respondZeroIfGet_cfg (op : Byte) (s : State) : (respondZeroIfGet op s).cfg = s.cfg := by unfold respondZeroIfGet; split <;> rfl
@[simp] theorem respondZeroIfGet_voices (op : Byte) (s : State) : (respondZeroIfGet op s).voices = s.voices := by unfold respondZeroIfGet; split <;> rfl
@[simp] theorem respondZeroIfGet_running (op : Byte) (s : State) : (respondZeroIfGet op s).running = s.running := by unfold respondZeroIfGet; split <;> rfl
@[simp] theorem respondZeroIfGet_tempo (op : Byte) (s : State) : (respondZeroIfGet op s).tempo = s.tempo := by unfold respondZeroIfGet; split <;> rfl
@[simp] theorem respondZeroIfGet_gstep (op : Byte) (s : State) : (respondZeroIfGet op s).gstep = s.gstep := by unfold respondZeroIfGet; split <;> rfl
@[simp] theorem respondZeroIfGet_duration (op : Byte) (s : State) : (respondZeroIfGet op s).duration = s.duration := by unfold respondZeroIfGet; split <;> rfl
@[simp] theorem respondZeroIfGet_sinkOk (op : Byte) (s : State) : (respondZeroIfGet op s).sinkOk = s.sinkOk := by unfold respondZeroIfGet; split <;> rfl
@[simp] theorem respondZeroIfGet_config (op : Byte) (s : State) : (respondZeroIfGet op s).config = s.config := by unfold respondZeroIfGet; split <;> rfl
@[simp] theorem respondZeroIfGet_epoch (op : Byte) (s : State) : (respondZeroIfGet op s).epoch = s.epoch := by unfold respondZeroIfGet; split <;> rfl
@[simp] theorem respondZeroIfGet_err (op : Byte) (s : State) : (respondZeroIfGet op s).err = s.err := by unfold respondZeroIfGet; split <;> rfl
@[simp] theorem respondZeroIfGet_lastErr (op : Byte) (s : State) : (respondZeroIfGet op s).lastErr = s.lastErr := by unfold respondZeroIfGet; split <;> rfl
@[simp] theorem respondZeroIfGet_faultCnt (op : Byte) (s : State) : (respondZeroIfGet op s).faultCnt = s.faultCnt := by unfold respondZeroIfGet; split <;> rfl
@[simp] theorem respondZeroIfGet_trigCnt (op : Byte) (s : State) : (respondZeroIfGet op s).trigCnt = s.trigCnt := by unfold respondZeroIfGet; split <;> rfl
@[simp] theorem respondZeroIfGet_nextInterval (op : Byte) (s : State) : (respondZeroIfGet op s).nextInterval = s.nextInterval := by unfold respondZeroIfGet; split <;> rfl
@[simp] theorem respondZeroIfGet_commandIn (op : Byte) (s : State) : (respondZeroIfGet op s).commandIn = s.commandIn := by unfold respondZeroIfGet; split <;> rfl
@[simp] theorem respondZeroIfGet_linkBytes (op : Byte) (s : State) : (respondZeroIfGet op s).linkBytes = s.linkBytes := by unfold respondZeroIfGet; split <;> rfl
@[simp] theorem respondZeroIfGet_responses (op : Byte) (s : State) : (respondZeroIfGet op s).responses = if isGetOp op then s.responses ++ [0] else s.responses := by unfold respondZeroIfGet; split <;> rfl
@[simp] theorem respondZeroIfGet_delivered (op : Byte) (s : State) : (respondZeroIfGet op s).delivered = s.delivered := by unfold respondZeroIfGet; split <;> rfl
@[simp] theorem respondZeroIfGet_sinkReady (op : Byte) (s : State) : (respondZeroIfGet op s).sinkReady = s.sinkReady := by unfold respondZeroIfGet; split <;> rfl
@[simp] theorem respondZeroIfGet_schedule (op : Byte) (s : State) : (respondZeroIfGet op s).schedule = s.schedule := by unfold respondZeroIfGet; split <;> rfl
@[simp] theorem respondZeroIfGet_draws (op : Byte) (s : State) : (respondZeroIfGet op s).draws = s.draws := by unfold respondZeroIfGet; split <;> rfl

@[simp] theorem rejectWord_cfg (w : CommandWord) (s : State) : (rejectWord w s).cfg = s.cfg := by simp [rejectWord]
@[simp] theorem rejectWord_voices (w : CommandWord) (s : State) : (rejectWord w s).voices = s.voices := by simp [rejectWord]
@[simp] theorem rejectWord_running (w : CommandWord) (s : State) : (rejectWord w s).running = s.running := by simp [rejectWord]
@[simp] theorem rejectWord_tempo (w : CommandWord) (s : State) : (rejectWord w s).tempo = s.tempo := by simp [rejectWord]
@[simp] theorem rejectWord_gstep (w : CommandWord) (s : State) : (rejectWord w s).gstep = s.gstep := by simp [rejectWord]
@[simp] theorem rejectWord_duration (w : CommandWord) (s : State) : (rejectWord w s).duration = s.duration := by simp [rejectWord]
@[simp] theorem rejectWord_sinkOk (w : CommandWord) (s : State) : (rejectWord w s).sinkOk = s.sinkOk := by simp [rejectWord]
@[simp] theorem rejectWord_config (w : CommandWord) (s : State) : (rejectWord w s).config = s.config := by simp [rejectWord]
@[simp] theorem rejectWord_epoch (w : CommandWord) (s : State) : (rejectWord w s).epoch = s.epoch := by simp [rejectWord]
@[simp] theorem rejectWord_err (w : CommandWord) (s : State) : (rejectWord w s).err = setErrFlag .badCmd s.err := by simp [rejectWord]
@[simp] theorem rejectWord_lastErr (w : CommandWord) (s : State) : (rejectWord w s).lastErr = lastErrWord .badCmd noVoice (commandDetail (fieldOp w) (fieldI w)) := by simp [rejectWord]
@[simp] theorem rejectWord_faultCnt (w : CommandWord) (s : State) : (rejectWord w s).faultCnt = s.faultCnt := by simp [rejectWord]
@[simp] theorem rejectWord_trigCnt (w : CommandWord) (s : State) : (rejectWord w s).trigCnt = s.trigCnt := by simp [rejectWord]
@[simp] theorem rejectWord_nextInterval (w : CommandWord) (s : State) : (rejectWord w s).nextInterval = s.nextInterval := by simp [rejectWord]
@[simp] theorem rejectWord_commandIn (w : CommandWord) (s : State) : (rejectWord w s).commandIn = s.commandIn := by simp [rejectWord]
@[simp] theorem rejectWord_linkBytes (w : CommandWord) (s : State) : (rejectWord w s).linkBytes = s.linkBytes := by simp [rejectWord]
@[simp] theorem rejectWord_responses (w : CommandWord) (s : State) : (rejectWord w s).responses = if isGetOp (fieldOp w) then s.responses ++ [0] else s.responses := by simp [rejectWord]
@[simp] theorem rejectWord_delivered (w : CommandWord) (s : State) : (rejectWord w s).delivered = s.delivered := by simp [rejectWord]
@[simp] theorem rejectWord_sinkReady (w : CommandWord) (s : State) : (rejectWord w s).sinkReady = s.sinkReady := by simp [rejectWord]
@[simp] theorem rejectWord_schedule (w : CommandWord) (s : State) : (rejectWord w s).schedule = s.schedule := by simp [rejectWord]
@[simp] theorem rejectWord_draws (w : CommandWord) (s : State) : (rejectWord w s).draws = s.draws := by simp [rejectWord]

@[simp] theorem rejectAddress_cfg (op x i : Byte) (s : State) : (rejectAddress op x i s).cfg = s.cfg := by simp [rejectAddress]
@[simp] theorem rejectAddress_voices (op x i : Byte) (s : State) : (rejectAddress op x i s).voices = s.voices := by simp [rejectAddress]
@[simp] theorem rejectAddress_running (op x i : Byte) (s : State) : (rejectAddress op x i s).running = s.running := by simp [rejectAddress]
@[simp] theorem rejectAddress_tempo (op x i : Byte) (s : State) : (rejectAddress op x i s).tempo = s.tempo := by simp [rejectAddress]
@[simp] theorem rejectAddress_gstep (op x i : Byte) (s : State) : (rejectAddress op x i s).gstep = s.gstep := by simp [rejectAddress]
@[simp] theorem rejectAddress_duration (op x i : Byte) (s : State) : (rejectAddress op x i s).duration = s.duration := by simp [rejectAddress]
@[simp] theorem rejectAddress_sinkOk (op x i : Byte) (s : State) : (rejectAddress op x i s).sinkOk = s.sinkOk := by simp [rejectAddress]
@[simp] theorem rejectAddress_config (op x i : Byte) (s : State) : (rejectAddress op x i s).config = s.config := by simp [rejectAddress]
@[simp] theorem rejectAddress_epoch (op x i : Byte) (s : State) : (rejectAddress op x i s).epoch = s.epoch := by simp [rejectAddress]
@[simp] theorem rejectAddress_err (op x i : Byte) (s : State) : (rejectAddress op x i s).err = setErrFlag .badAddr s.err := by simp [rejectAddress]
@[simp] theorem rejectAddress_lastErr (op x i : Byte) (s : State) : (rejectAddress op x i s).lastErr = lastErrWord .badAddr x (commandDetail op i) := by simp [rejectAddress]
@[simp] theorem rejectAddress_faultCnt (op x i : Byte) (s : State) : (rejectAddress op x i s).faultCnt = s.faultCnt := by simp [rejectAddress]
@[simp] theorem rejectAddress_trigCnt (op x i : Byte) (s : State) : (rejectAddress op x i s).trigCnt = s.trigCnt := by simp [rejectAddress]
@[simp] theorem rejectAddress_nextInterval (op x i : Byte) (s : State) : (rejectAddress op x i s).nextInterval = s.nextInterval := by simp [rejectAddress]
@[simp] theorem rejectAddress_commandIn (op x i : Byte) (s : State) : (rejectAddress op x i s).commandIn = s.commandIn := by simp [rejectAddress]
@[simp] theorem rejectAddress_linkBytes (op x i : Byte) (s : State) : (rejectAddress op x i s).linkBytes = s.linkBytes := by simp [rejectAddress]
@[simp] theorem rejectAddress_responses (op x i : Byte) (s : State) : (rejectAddress op x i s).responses = if isGetOp op then s.responses ++ [0] else s.responses := by simp [rejectAddress]
@[simp] theorem rejectAddress_delivered (op x i : Byte) (s : State) : (rejectAddress op x i s).delivered = s.delivered := by simp [rejectAddress]
@[simp] theorem rejectAddress_sinkReady (op x i : Byte) (s : State) : (rejectAddress op x i s).sinkReady = s.sinkReady := by simp [rejectAddress]
@[simp] theorem rejectAddress_schedule (op x i : Byte) (s : State) : (rejectAddress op x i s).schedule = s.schedule := by simp [rejectAddress]
@[simp] theorem rejectAddress_draws (op x i : Byte) (s : State) : (rejectAddress op x i s).draws = s.draws := by simp [rejectAddress]

@[simp] theorem storeParam_cfg (v p : Byte) (f : Param) (raw : Int) (s : State) : (storeParam v p f raw s).cfg = s.cfg := by simp [storeParam]
@[simp] theorem storeParam_voices (v p : Byte) (f : Param) (raw : Int) (s : State) : (storeParam v p f raw s).voices = s.voices.modify v.toNat (fun c => { c with params := setParam f (clampRaw raw (paramLo f) (paramHi s.cfg f)) c.params }) := by simp [storeParam]
@[simp] theorem storeParam_running (v p : Byte) (f : Param) (raw : Int) (s : State) : (storeParam v p f raw s).running = s.running := by simp [storeParam]
@[simp] theorem storeParam_tempo (v p : Byte) (f : Param) (raw : Int) (s : State) : (storeParam v p f raw s).tempo = s.tempo := by simp [storeParam]
@[simp] theorem storeParam_gstep (v p : Byte) (f : Param) (raw : Int) (s : State) : (storeParam v p f raw s).gstep = s.gstep := by simp [storeParam]
@[simp] theorem storeParam_duration (v p : Byte) (f : Param) (raw : Int) (s : State) : (storeParam v p f raw s).duration = s.duration := by simp [storeParam]
@[simp] theorem storeParam_sinkOk (v p : Byte) (f : Param) (raw : Int) (s : State) : (storeParam v p f raw s).sinkOk = s.sinkOk := by simp [storeParam]
@[simp] theorem storeParam_config (v p : Byte) (f : Param) (raw : Int) (s : State) : (storeParam v p f raw s).config = s.config := by simp [storeParam]
@[simp] theorem storeParam_epoch (v p : Byte) (f : Param) (raw : Int) (s : State) : (storeParam v p f raw s).epoch = s.epoch := by simp [storeParam]
@[simp] theorem storeParam_err (v p : Byte) (f : Param) (raw : Int) (s : State) : (storeParam v p f raw s).err = if clamped raw (paramLo f) (paramHi s.cfg f) then setErrFlag .cfgClamp s.err else s.err := by simp [storeParam]
@[simp] theorem storeParam_lastErr (v p : Byte) (f : Param) (raw : Int) (s : State) : (storeParam v p f raw s).lastErr = if clamped raw (paramLo f) (paramHi s.cfg f) then lastErrWord .cfgClamp v (commandDetail 0x01 p) else s.lastErr := by simp [storeParam]
@[simp] theorem storeParam_faultCnt (v p : Byte) (f : Param) (raw : Int) (s : State) : (storeParam v p f raw s).faultCnt = s.faultCnt := by simp [storeParam]
@[simp] theorem storeParam_trigCnt (v p : Byte) (f : Param) (raw : Int) (s : State) : (storeParam v p f raw s).trigCnt = s.trigCnt := by simp [storeParam]
@[simp] theorem storeParam_nextInterval (v p : Byte) (f : Param) (raw : Int) (s : State) : (storeParam v p f raw s).nextInterval = s.nextInterval := by simp [storeParam]
@[simp] theorem storeParam_commandIn (v p : Byte) (f : Param) (raw : Int) (s : State) : (storeParam v p f raw s).commandIn = s.commandIn := by simp [storeParam]
@[simp] theorem storeParam_linkBytes (v p : Byte) (f : Param) (raw : Int) (s : State) : (storeParam v p f raw s).linkBytes = s.linkBytes := by simp [storeParam]
@[simp] theorem storeParam_responses (v p : Byte) (f : Param) (raw : Int) (s : State) : (storeParam v p f raw s).responses = s.responses := by simp [storeParam]
@[simp] theorem storeParam_delivered (v p : Byte) (f : Param) (raw : Int) (s : State) : (storeParam v p f raw s).delivered = s.delivered := by simp [storeParam]
@[simp] theorem storeParam_sinkReady (v p : Byte) (f : Param) (raw : Int) (s : State) : (storeParam v p f raw s).sinkReady = s.sinkReady := by simp [storeParam]
@[simp] theorem storeParam_schedule (v p : Byte) (f : Param) (raw : Int) (s : State) : (storeParam v p f raw s).schedule = s.schedule := by simp [storeParam]
@[simp] theorem storeParam_draws (v p : Byte) (f : Param) (raw : Int) (s : State) : (storeParam v p f raw s).draws = s.draws := by simp [storeParam]

/-- Setting a flag keeps every flag already set (10_state.md R41). -/
theorem setErrFlag_keeps (c : ErrCode) (err : Word) {k : Nat} (h : err.getLsbD k = true) :
    (setErrFlag c err).getLsbD k = true := by simp [setErrFlag, h]

/-- Setting a flag sets it (60_exceptions.md R241). -/
theorem setErrFlag_self (c : ErrCode) (err : Word) : (setErrFlag c err).getLsbD c.bit = true := by
  cases c <;> simp [setErrFlag, ErrCode.bit]

/-- The reserved bits of ERR stay zero (10_state.md R41). -/
theorem setErrFlag_reserved (c : ErrCode) {err : Word} (h : err.extractLsb' 6 26 = 0) :
    (setErrFlag c err).extractLsb' 6 26 = 0 := by
  have hc : (BitVec.twoPow 32 c.bit).extractLsb' 6 26 = 0 := by cases c <;> decide
  have : (setErrFlag c err).extractLsb' 6 26 =
      err.extractLsb' 6 26 ||| (BitVec.twoPow 32 c.bit).extractLsb' 6 26 := by
    apply BitVec.eq_of_getLsbD_eq; intro k hk; simp [setErrFlag, hk]
  rw [this, h, hc]; rfl

/-- Setting a flag twice sets it once. -/
theorem setErrFlag_idem (c : ErrCode) (err : Word) : setErrFlag c (setErrFlag c err) = setErrFlag c err := by
  simp [setErrFlag, BitVec.or_assoc]

end Sys2Proof.Machine
end

