-- ==== Sys2Proof/Laws/PerInstr.lean ====
section
/-! SUPPORT. Statements made for every command, one lemma per constructor. -/

namespace Sys2Proof.Laws.OpcodeField

open Sys2Proof

/-- The OP field of a command's word is its opcode (30_encoding.md R83). -/
def Statement (i : Instr) : Prop := fieldOp (encode i) = i.opcode

theorem nop : Statement .nop := fieldOp_assemble ..
theorem setp (v p : Byte) (val : Word) : Statement (.setp v p val) := fieldOp_assemble ..
theorem sets (v i : Byte) (b : Bool) : Statement (.sets v i b) := fieldOp_assemble ..
theorem sett (val : Word) : Statement (.sett val) := fieldOp_assemble ..
theorem start : Statement .start := fieldOp_assemble ..
theorem stop : Statement .stop := fieldOp_assemble ..
theorem setd (val : Word) : Statement (.setd val) := fieldOp_assemble ..
theorem setcfg (c : Word) : Statement (.setcfg c) := fieldOp_assemble ..
theorem getp (v p : Byte) : Statement (.getp v p) := fieldOp_assemble ..
theorem gets (v i : Byte) : Statement (.gets v i) := fieldOp_assemble ..
theorem getstat (i : Byte) : Statement (.getstat i) := fieldOp_assemble ..
theorem clrdiag : Statement .clrdiag := fieldOp_assemble ..

end Sys2Proof.Laws.OpcodeField
end

