-- ==== Sys2Proof/Laws/Transport.lean ====
section
/-! SUPPORT. What a tick does (40_transport_clock.md R113 to R118): each voice's part once, and the fold over the
voices by one induction each for the voices, the counter and the error record. -/

namespace Sys2Proof.Machine

open Sys2Proof

/-- What a tick at `g` leaves in voice `v` (R113, R117, R118). -/
def tickedVoice (s : State) (g : BitVec 64) (v : Nat) : Voice :=
  if tickTriggers s g v then
    if s.busy v then { s.voice v with ovrCnt := saturatingSucc (s.voice v).ovrCnt }
    else { s.voice v with snap := some (takeSnapshot s v g) }
  else s.voice v

/-- The tick drops voice `v`'s trigger. -/
def tickOverruns (s : State) (g : BitVec 64) (v : Nat) : Bool := tickTriggers s g v && s.busy v

/-- The tick accepts voice `v`'s trigger. -/
def tickAccepts (s : State) (g : BitVec 64) (v : Nat) : Bool := tickTriggers s g v && !s.busy v

/-- One voice's part of a tick, written as one record update. -/
theorem tickVoice_eq (g : BitVec 64) (s : State) (v : Nat) :
    tickVoice g s v =
      { s with
        voices := if tickTriggers s g v then s.voices.modify v (fun c =>
          if s.busy v then { c with ovrCnt := saturatingSucc c.ovrCnt }
          else { c with snap := some (takeSnapshot s v g) }) else s.voices
        err := if tickOverruns s g v then setErrFlag .overrun s.err else s.err
        lastErr := if tickOverruns s g v then lastErrWord .overrun (BitVec.ofNat 8 v) (stepDetail g) else s.lastErr
        trigCnt := if tickAccepts s g v then s.trigCnt + 1 else s.trigCnt } := by
  unfold tickVoice tickOverruns tickAccepts trigger
  by_cases ht : tickTriggers s g v = true
  · by_cases hb : s.busy v = true
    · simp [ht, hb]; rfl
    · simp [ht, hb]; rfl
  · simp [ht]

/-- The fields one voice's part of a tick leaves alone. -/
theorem tickVoice_frame (g : BitVec 64) (s : State) (v : Nat) :
    tickVoice g s v = { s with
      voices := (tickVoice g s v).voices, err := (tickVoice g s v).err,
      lastErr := (tickVoice g s v).lastErr, trigCnt := (tickVoice g s v).trigCnt } := by
  rw [tickVoice_eq]

@[simp] theorem tickVoice_voices_length (g : BitVec 64) (s : State) (v : Nat) :
    (tickVoice g s v).voices.length = s.voices.length := by
  rw [tickVoice_eq]; dsimp only; split <;> simp

/-- One voice's part changes no other voice. -/
theorem tickVoice_voice_other (g : BitVec 64) (s : State) {u v : Nat} (h : u ≠ v) :
    (tickVoice g s v).voice u = s.voice u := by
  have h' : v ≠ u := fun e => h e.symm
  rw [tickVoice_eq]
  simp only [State.voice, List.getD_eq_getElem?_getD]
  split <;> simp [h']

theorem tickVoice_voice_same (g : BitVec 64) (s : State) {v : Nat} (h : v < s.voices.length) :
    (tickVoice g s v).voice v = tickedVoice s g v := by
  rw [tickVoice_eq]
  unfold tickedVoice
  simp only [State.voice, List.getD_eq_getElem?_getD]
  split
  · split <;> simp [h]
  · rfl

/-- The decision about a voice depends on that voice alone. -/
theorem tickTriggers_congr {s t : State} (g : BitVec 64) {v : Nat} (h : t.voice v = s.voice v) :
    tickTriggers t g v = tickTriggers s g v := by
  unfold tickTriggers stepIndex State.gridCell State.params; rw [h]

theorem busy_congr {s t : State} {v : Nat} (h : t.voice v = s.voice v) : t.busy v = s.busy v := by
  simp [State.busy, h]

theorem tickVoice_decisions (g : BitVec 64) (s : State) {u v : Nat} (h : u ≠ v) :
    tickTriggers (tickVoice g s v) g u = tickTriggers s g u ∧ (tickVoice g s v).busy u = s.busy u :=
  ⟨tickTriggers_congr g (tickVoice_voice_other g s h), busy_congr (tickVoice_voice_other g s h)⟩

theorem tickedVoice_tickVoice (g : BitVec 64) (s : State) {u v : Nat} (h : u ≠ v) :
    tickedVoice (tickVoice g s v) g u = tickedVoice s g u := by
  have hv := tickVoice_voice_other g s h
  have hsnap : takeSnapshot (tickVoice g s v) u g = takeSnapshot s u g := by
    have := tickVoice_frame g s v
    simp only [takeSnapshot, State.params, hv]
    rw [this]
  simp [tickedVoice, tickVoice_decisions g s h, hv, hsnap]

/-- A fold of voices' parts, seen from one field it leaves alone. -/
theorem foldl_tickVoice_frame (g : BitVec 64) (l : List Nat) (s : State) :
    l.foldl (tickVoice g) s = { s with
      voices := (l.foldl (tickVoice g) s).voices, err := (l.foldl (tickVoice g) s).err,
      lastErr := (l.foldl (tickVoice g) s).lastErr, trigCnt := (l.foldl (tickVoice g) s).trigCnt } := by
  induction l generalizing s with
  | nil => rfl
  | cons v l ih =>
    rw [List.foldl_cons]
    conv_lhs => rw [ih]
    rw [tickVoice_frame g s v]

theorem foldl_tickVoice_voices_length (g : BitVec 64) (l : List Nat) (s : State) :
    (l.foldl (tickVoice g) s).voices.length = s.voices.length := by
  induction l generalizing s with
  | nil => rfl
  | cons v l ih => rw [List.foldl_cons, ih, tickVoice_voices_length]

/-- What a fold of voices' parts leaves in each voice. -/
theorem foldl_tickVoice_voice (g : BitVec 64) (l : List Nat) (s : State) (hl : l.Nodup) (u : Nat)
    (hu : u < s.voices.length) :
    (l.foldl (tickVoice g) s).voice u = if u ∈ l then tickedVoice s g u else s.voice u := by
  induction l generalizing s with
  | nil => simp
  | cons v l ih =>
    rw [List.foldl_cons, ih _ (List.nodup_cons.mp hl).2 (by simpa using hu)]
    by_cases huv : u = v
    · subst huv
      have hnot : u ∉ l := (List.nodup_cons.mp hl).1
      simp [hnot, tickVoice_voice_same g s hu]
    · simp [huv, tickedVoice_tickVoice g s huv, tickVoice_voice_other g s huv]

theorem filter_tickVoice (g : BitVec 64) (s : State) {v : Nat} {l : List Nat} (hv : v ∉ l) :
    l.filter (tickOverruns (tickVoice g s v) g) = l.filter (tickOverruns s g) ∧
    l.countP (tickAccepts (tickVoice g s v) g) = l.countP (tickAccepts s g) := by
  have hne : ∀ u ∈ l, u ≠ v := fun u hu e => hv (e ▸ hu)
  constructor
  · exact List.filter_congr fun u hu => by simp [tickOverruns, tickVoice_decisions g s (hne u hu)]
  · exact List.countP_congr fun u hu => by simp [tickAccepts, tickVoice_decisions g s (hne u hu)]

/-- What a fold of voices' parts leaves in TRIG_CNT (R118). -/
theorem foldl_tickVoice_trigCnt (g : BitVec 64) (l : List Nat) (s : State) (hl : l.Nodup) :
    (l.foldl (tickVoice g) s).trigCnt = s.trigCnt + BitVec.ofNat 32 (l.countP (tickAccepts s g)) := by
  induction l generalizing s with
  | nil => simp
  | cons v l ih =>
    have hv := (List.nodup_cons.mp hl).1
    rw [List.foldl_cons, ih _ (List.nodup_cons.mp hl).2, (filter_tickVoice g s hv).2, List.countP_cons]
    have : (tickVoice g s v).trigCnt = if tickAccepts s g v then s.trigCnt + 1 else s.trigCnt := by
      rw [tickVoice_eq]
    rw [this]
    by_cases ha : tickAccepts s g v = true
    · simp only [ha, if_true, BitVec.ofNat_add]
      rw [BitVec.add_assoc]; congr 1; exact BitVec.add_comm _ _
    · simp [ha]

/-- What a fold of voices' parts leaves in ERR and LAST_ERR: the last overrunning voice's record
(60_exceptions.md R247, R251). -/
theorem foldl_tickVoice_errors (g : BitVec 64) (l : List Nat) (s : State) (hl : l.Nodup) :
    ((l.foldl (tickVoice g) s).err, (l.foldl (tickVoice g) s).lastErr) =
      match (l.filter (tickOverruns s g)).getLast? with
      | none   => (s.err, s.lastErr)
      | some v => (setErrFlag .overrun s.err, lastErrWord .overrun (BitVec.ofNat 8 v) (stepDetail g)) := by
  induction l generalizing s with
  | nil => simp
  | cons v l ih =>
    have hv := (List.nodup_cons.mp hl).1
    rw [List.foldl_cons, ih _ (List.nodup_cons.mp hl).2, (filter_tickVoice g s hv).1]
    have he : (tickVoice g s v).err = if tickOverruns s g v then setErrFlag .overrun s.err else s.err := by
      rw [tickVoice_eq]
    have hle : (tickVoice g s v).lastErr = if tickOverruns s g v then
        lastErrWord .overrun (BitVec.ofNat 8 v) (stepDetail g) else s.lastErr := by rw [tickVoice_eq]
    by_cases ho : tickOverruns s g v = true
    · simp only [ho, if_true] at he hle
      rw [List.filter_cons_of_pos ho]
      cases hg : (l.filter (tickOverruns s g)).getLast? with
      | none => simp [List.getLast?_eq_none_iff.mp hg, he, hle]
      | some u => simp [List.getLast?_cons, hg, he, setErrFlag_idem]
    · simp only [ho, if_false, Bool.false_eq_true] at he hle
      rw [List.filter_cons_of_neg ho, he, hle]

/-- Everything a tick leaves alone (R113). -/
theorem tick_frame (s : State) :
    tick s = { s with
      voices := (tick s).voices, err := (tick s).err, lastErr := (tick s).lastErr, trigCnt := (tick s).trigCnt
      gstep := s.gstep + 1, nextInterval := tickInterval s.tempo } := by
  unfold tick tickVoices
  rw [foldl_tickVoice_frame]

@[simp] theorem tick_voices_length (s : State) : (tick s).voices.length = s.voices.length :=
  foldl_tickVoice_voices_length _ _ _

/-- What a tick leaves in each voice (R113). -/
theorem tick_voice (s : State) {u : Nat} (hn : u < s.cfg.numVoices) (hu : u < s.voices.length) :
    (tick s).voice u = tickedVoice s s.gstep u := by
  have h1 : (tick s).voice u = (tickVoices s.gstep s).voice u :=
    voice_congr rfl rfl u
  rw [h1]
  unfold tickVoices
  rw [foldl_tickVoice_voice _ _ _ List.nodup_range u hu]
  simp [hn]

end Sys2Proof.Machine
end

