-- ==== Sys2Proof/Laws/Step.lean ====
section
/-! SUPPORT. What a step can do, said once: the turn it takes, and what each turn may change. -/

namespace Sys2Proof.Machine

open Sys2Proof

/-- Taking a turn from the schedule changes only the model's own two fields. -/
theorem nextTurn_frame {s u : State} {t : Turn} (h : nextTurn s = some (t, u)) :
    u = { s with schedule := u.schedule, draws := u.draws } := by
  unfold nextTurn at h
  split at h
  · cases h; rfl
  · split at h <;> cases h <;> rfl

/-- A scheduled turn comes next. -/
theorem nextTurn_scheduled {s : State} {t : Turn} {rest : List Turn} (h : s.schedule = t :: rest) :
    nextTurn s = some (t, { s with schedule := rest }) := by
  unfold nextTurn; rw [h]

/-- A step is one turn, or nothing when no turn is due and no agent is enabled. -/
theorem step_cases {s : State} {o : Host.Outcome State Fault Refusal} (h : step s = o) :
    (nextTurn s = none ∧ o = .next s) ∨ ∃ t u, nextTurn s = some (t, u) ∧ runTurn t u = o := by
  unfold step at h
  split at h
  · exact .inl ⟨by assumption, h.symm⟩
  · exact .inr ⟨_, _, by assumption, h⟩

/-- A scheduled turn is what the step runs. -/
theorem step_scheduled {s : State} {t : Turn} {rest : List Turn} (h : s.schedule = t :: rest) :
    step s = runTurn t { s with schedule := rest } := by
  unfold step; rw [nextTurn_scheduled h]

/-- The host's turn runs the command its word stands for. -/
theorem commandStep_ok {s : State} {w : CommandWord} {rest : List CommandWord} {i : Instr}
    (hp : s.commandIn = w :: rest) (hd : decode w = .ok i) :
    commandStep s = exec i { s with commandIn := rest } := by
  simp [commandStep, takeWord, hp, executeWord, hd]

/-- The word presented to a state is what its next step runs. -/
theorem step_presentWord (w : CommandWord) (s : State) : step (presentWord w s) = executeWord w s := by
  rw [step_scheduled (t := .command) (rest := s.schedule) rfl]
  rfl

/-- What a command may change: never the parameters of the machine, the counters of steps and renders, the ports'
inputs or the records. Every command answers a next state. -/
theorem exec_frame (i : Instr) (s : State) :
    ∃ t, exec i s = .next t ∧ t = { s with
      voices := t.voices, running := t.running, tempo := t.tempo, duration := t.duration, config := t.config
      epoch := t.epoch, err := t.err, lastErr := t.lastErr, faultCnt := t.faultCnt, trigCnt := t.trigCnt
      nextInterval := t.nextInterval, responses := t.responses } := by
  have close : ∀ t : State, t.cfg = s.cfg → t.gstep = s.gstep → t.sinkOk = s.sinkOk → t.commandIn = s.commandIn →
      t.linkBytes = s.linkBytes → t.delivered = s.delivered → t.sinkReady = s.sinkReady → t.schedule = s.schedule →
      t.draws = s.draws → t = { s with
        voices := t.voices, running := t.running, tempo := t.tempo, duration := t.duration, config := t.config
        epoch := t.epoch, err := t.err, lastErr := t.lastErr, faultCnt := t.faultCnt, trigCnt := t.trigCnt
        nextInterval := t.nextInterval, responses := t.responses } := by
    intro t h1 h2 h3 h4 h5 h6 h7 h8 h9
    cases t; cases s; simp only at *; subst_vars; rfl
  cases i with
  | nop => exact ⟨s, rfl, rfl⟩
  | setp v p val =>
    simp only [exec, execSetp]
    split
    · exact ⟨_, rfl, by apply close <;> simp⟩
    · exact ⟨_, rfl, by apply close <;> simp⟩
  | sets v k b =>
    simp only [exec, execSets]
    split
    · exact ⟨_, rfl, by apply close <;> simp⟩
    · exact ⟨_, rfl, by apply close <;> simp⟩
  | sett val => exact ⟨_, rfl, by apply close <;> simp⟩
  | start =>
    simp only [exec, execStart]
    split
    · exact ⟨_, rfl, rfl⟩
    · split
      · exact ⟨_, rfl, rfl⟩
      · exact ⟨_, rfl, by apply close <;> simp⟩
  | stop =>
    simp only [exec, execStop]
    split
    · exact ⟨_, rfl, rfl⟩
    · exact ⟨_, rfl, rfl⟩
  | setd val => exact ⟨_, rfl, by apply close <;> simp⟩
  | setcfg c =>
    simp only [exec, execSetcfg]
    split
    · exact ⟨_, rfl, rfl⟩
    · exact ⟨_, rfl, by apply close <;> simp⟩
  | getp v p =>
    simp only [exec, execGetp]
    split
    · exact ⟨_, rfl, by apply close <;> simp⟩
    · exact ⟨_, rfl, by apply close <;> simp⟩
  | gets v k =>
    simp only [exec, execGets]
    split
    · exact ⟨_, rfl, by apply close <;> simp⟩
    · exact ⟨_, rfl, by apply close <;> simp⟩
  | getstat k =>
    simp only [exec, execGetstat]
    split
    · exact ⟨_, rfl, by apply close <;> simp⟩
    · exact ⟨_, rfl, by apply close <;> simp⟩
  | clrdiag => exact ⟨_, rfl, by apply close <;> simp⟩

/-- What a completion may change (45_mixer_quantizer.md R200). -/
theorem renderStep_frame (v : Nat) (s : State) :
    renderStep v s = { s with
      voices := (renderStep v s).voices, err := (renderStep v s).err, lastErr := (renderStep v s).lastErr
      faultCnt := (renderStep v s).faultCnt, delivered := (renderStep v s).delivered
      draws := (renderStep v s).draws } := by
  unfold renderStep
  split
  · rfl
  · split
    · rfl
    · unfold finishRender; split <;> rfl

end Sys2Proof.Machine
end

