-- ==== Sys2Proof/Laws/Safety.lean ====
section
/-! SUPPORT. The small lemmas of the legal states (Safety.lean): a field written, a voice changed, and the clauses of
the invariant carried over. -/

namespace Sys2Proof.Machine

open Sys2Proof

/-- A legal record stays legal when a field takes a value of its range (10_state.md R28). -/
theorem setParam_legal {c : Config} {r : VoiceParams} (h : LegalParams c r) (f : Param) (x : Nat)
    (h1 : paramLo f ≤ x) (h2 : x ≤ paramHi c f) : LegalParams c (setParam f x r) := by
  obtain ⟨hs, hl, hg⟩ := h
  refine ⟨?_, by simpa using hl, ?_⟩
  · intro g hgm
    by_cases hgf : g = f
    · subst hgf
      rw [getParam_setParam_same]
      · exact ⟨h1, h2⟩
      · rintro k rfl; simp [scalarParams] at hgm
    · rw [getParam_setParam_other hgf]; exact hs g hgm
  · cases f <;> simp only [setParam] <;> try exact hg
    rename_i k
    intro g hgm
    rcases List.mem_or_eq_of_mem_set hgm with h | h
    · exact hg g h
    · subst h; exact h2

/-- A property of every voice is kept by a change of one voice that keeps it. -/
theorem forall_mem_modify {l : List Voice} {v : Nat} {f : Voice → Voice} {P : Voice → Prop} (h : ∀ x ∈ l, P x)
    (hf : ∀ x ∈ l, P (f x)) : ∀ x ∈ l.modify v f, P x := by
  intro x hx
  obtain ⟨k, hk⟩ := List.mem_iff_getElem?.mp hx
  rw [List.getElem?_modify] at hk
  cases hl : l[k]? with
  | none => simp [hl] at hk
  | some y =>
    rw [hl] at hk
    have hy := List.mem_of_getElem? hl
    by_cases hvk : v = k
    · simp [hvk] at hk; rw [← hk]; exact hf y hy
    · simp [hvk] at hk; rw [← hk]; exact h y hy

/-- The invariant, clause by clause, in a state of the same parameters. -/
theorem inv_of_eq {s t : State} (h : s.Inv) (h1 : t.cfg = s.cfg) (h2 : t.voices.length = s.voices.length)
    (h3 : ∀ x ∈ t.voices, LegalVoice s.cfg x) (h4 : tempoLo ≤ t.tempo ∧ t.tempo ≤ tempoHi)
    (h5 : durationLo ≤ t.duration ∧ t.duration ≤ durationHi) (h6 : configReservedZero t.config = true)
    (h7 : t.err.extractLsb' 6 26 = 0) (h8 : t.nextInterval = 0 ∨ (1 / 16 ≤ t.nextInterval ∧ t.nextInterval ≤ 1 / 4))
    (h9 : t.linkBytes.length ≤ 7) (h10 : ∀ r ∈ t.delivered, LegalRecord r) : t.Inv := by
  unfold State.Inv
  rw [h1, h2]
  exact ⟨h.1, h.2.1, h3, h4, h5, h6, h7, h8, h9, h10⟩

end Sys2Proof.Machine
end

