-- ==== Sys2Proof/Tests/Slice0.lean ====
section
/-! SUPPORT. The model's own tests. Expected values are spec/95_test_vectors.md's (the vector is named), or written out
from the rule named. The second half shows, for each statement with hypotheses, states that meet them all. -/

namespace Sys2Proof.Tests

set_option Elab.async false  -- one theorem at a time: less memory

open Sys2Proof Sys2Proof.Machine

/-- The state a word leaves. -/
def after (w : CommandWord) (s : State) : State :=
  match executeWord w s with
  | .next t    => t
  | .fault _   => s
  | .refused _ => s

/-! Well-formedness -/

/-- 46_control_commands.md R226: the one check refuses a reserved configuration bit, lowest and highest. -/
theorem test_setcfg_reserved_bits_ill_formed :
    Instr.wellFormed (.setcfg 4) = false ∧ Instr.wellFormed (.setcfg 0x80000000) = false ∧
    Instr.wellFormed (.setcfg 3) = true := by decide

/-- What an ill-formed term encodes to is a word the decoder refuses (DC6). -/
theorem test_setcfg_reserved_bits_refused : decode (encode (.setcfg 4)) = .error (.nonzeroField 7) := by decide

/-! Decoding: words written out from the fields of 30_encoding.md R80 and R81 (many are R94's) -/

theorem test_decode_nop : decode 0x0000000000000000 = .ok .nop := by decide
theorem test_decode_setp : decode 0x01010700FFFFFFFB = .ok (.setp 1 7 0xFFFFFFFB) := by decide
theorem test_decode_sets : decode 0x0200020100000000 = .ok (.sets 0 2 true) ∧
    decode 0x02031F0000000000 = .ok (.sets 3 31 false) := by decide
theorem test_decode_sett : decode 0x030000000003A980 = .ok (.sett 240000) := by decide
theorem test_decode_start : decode 0x0400000000000000 = .ok .start := by decide
theorem test_decode_stop : decode 0x0500000000000000 = .ok .stop := by decide
theorem test_decode_setd : decode 0x060000000007A120 = .ok (.setd 500000) := by decide
theorem test_decode_setcfg : decode 0x0700000000000003 = .ok (.setcfg 3) := by decide
theorem test_decode_getp : decode 0x08000B0000000000 = .ok (.getp 0 11) := by decide
theorem test_decode_gets : decode 0x0900020000000000 = .ok (.gets 0 2) := by decide
theorem test_decode_getstat : decode 0x0A000E0000000000 = .ok (.getstat 14) := by decide
theorem test_decode_clrdiag : decode 0x0B00000000000000 = .ok .clrdiag := by decide

/-- A word bit by bit: OP 0000_0010, V 0000_0001, I 0001_1110, RSV 000_0000, B 1, VAL 0. -/
theorem test_decode_bits :
    decode (0b00000010#8 ++ 0b00000001#8 ++ 0b00011110#8 ++ 0b0000000#7 ++ 0b1#1 ++ 0#32) =
      .ok (.sets 1 30 true) := by decide

/-- DC1 to DC6: the malformed words. -/
theorem test_decode_malformed :
    decode 0x0C00000000000000 = .error (.unassignedOpcode 0x0C) ∧
    decode 0xFF00000000000000 = .error (.unassignedOpcode 0xFF) ∧
    decode 0x0100040100000000 = .error (.nonzeroField 1) ∧ decode 0x0100040200000000 = .error (.nonzeroField 1) ∧
    decode 0x0A01010000000000 = .error (.nonzeroField 0x0A) ∧
    decode 0x0700000000000004 = .error (.nonzeroField 7) := by decide

/-- No word is of two rows of the table: two rows differ in a bit both look at. -/
theorem test_rows_do_not_overlap :
    opcodeTable.Pairwise fun r q => r.bits &&& (r.mask &&& q.mask) ≠ q.bits &&& (r.mask &&& q.mask) := by decide

/-- Seven bytes are no command; the eighth completes it (20_memory.md R66). -/
theorem test_partial_word :
    decodeBytes [0, 0, 0, 0, 0, 0, 0] = .error .partialWord ∧
    decodeBytes [0x80, 0xA9, 0x03, 0, 0, 0, 0, 0x03, 0x55] = .ok (.sett 240000, [0x55]) := by decide

theorem test_table_word : decodeTableWord 64 0x0400000000000000 = some .start ∧
    decodeTableWord 64 0x0C00000000000000 = none := by decide

/-- 30_encoding.md R93: PATTERN writes the cells in index order, RDGSTEP reads the two halves. -/
theorem test_pseudo_commands :
    assembleLine "PATTERN 0, 1 0 1 0 ; four cells".toList =
      some [.sets 0 0 true, .sets 0 1 false, .sets 0 2 true, .sets 0 3 false] ∧
    assembleLine "RDGSTEP".toList = some [.getstat 5, .getstat 6] ∧
    assembleLine "SETT 119.9999BPM".toList = none := by decide +kernel

/-- Log entries 23 and 24: no 0x numeral; configuration bits a plain integer; a voice the machine has not is named all
the same, and no number is cut to a byte. -/
theorem test_out_of_range_lines_and_documents :
    assembleLine "SETT 0x10".toList = none ∧ assembleLine "SETCFG 1ms".toList = none ∧
    assembleLine "SETCFG 3".toList = some [.setcfg 3] ∧ loadVoice 4 [(some .mute, 1), (none, 7)] = [.setp 4 0x0C 1] ∧
    loadVoice 0 [(some (.eqGain 223), 1), (some (.eqGain 224), 1)] = [.setp 0 0xFF 1] ∧
    loadRow 256 [some true] = [] ∧ loadRow 255 [none, some true] = [.sets 255 1 true] := by decide +kernel

/-! Commands -/

/-- V1, V2: both ends of a range. -/
theorem test_setp_clamps :
    (((after 0x01000000000DBBA0 .reset).params 0).osc1Freq, (after 0x01000000000DBBA0 .reset).err) = (880000, 1) ∧
    (((after 0x01000000FFFFFFFF .reset).params 0).osc1Freq, (after 0x01000000FFFFFFFF .reset).err) = (0, 1) := by
  decide

/-- V6, V8, V14: an EQ gain, a value at its bound, and another voice. -/
theorem test_setp_fields :
    ((after 0x01002000004C4B40 .reset).params 0).eqGain[0]? = some 4000000 ∧
    (((after 0x01000400000DBBA0 .reset).params 0).attack, (after 0x01000400000DBBA0 .reset).err) = (900000, 0) ∧
    (((after 0x01010700FFFFFFFB .reset).params 1).sustain, ((after 0x01010700FFFFFFFB .reset).params 0).sustain) =
      (0, 700000) := by decide

/-- P1: the cell named, and no other. -/
theorem test_sets_cell :
    ((after 0x0200020100000000 .reset).gridCell 0 2, (after 0x0200020100000000 .reset).gridCell 0 1,
      (after 0x0200020100000000 .reset).gridCell 1 2) = (true, false, false) := by decide

/-- V12, V13. -/
theorem test_sett_clamps :
    ((after 0x03000000FFFFFFFF .reset).tempo, (after 0x03000000FFFFFFFF .reset).lastErr) = (60000, 0x0300FF01) ∧
    (after 0x03000000000493E0 .reset).tempo = 240000 := by decide

/-- V9, V10. -/
theorem test_setd_clamps :
    (after 0x06000000000003E7 .reset).duration = 1000 ∧ (after 0x0600000001312D00 .reset).duration = 10000000 := by
  decide

/-- K1, K3. -/
theorem test_start :
    statusWord (after 0x0400000000000000 .reset) = 3 ∧
    (after 0x0400000000000000 (State.resetWith Config.default false)).lastErr = 0x0400FF04 ∧
    (after 0x0400000000000000 (State.resetWith Config.default false)).running = false := by decide

/-- K4, K5. -/
theorem test_stop :
    (after 0x0500000000000000 { State.reset with running := true }).epoch = 1 ∧
    (after 0x0500000000000000 { State.reset with epoch := 1 }).epoch = 1 := by decide

/-- 46_control_commands.md R225, and DC6. -/
theorem test_setcfg :
    (after 0x0700000000000003 .reset).config = 3 ∧ (after 0x0700000000000004 .reset).config = 0 ∧
    (after 0x0700000000000004 .reset).lastErr = 0x0700FF02 := by decide

/-- P3: the clamped value read back; DC8, DC9: reserved ids answer 0. -/
theorem test_getp :
    (after 0x0800040000000000 (after 0x01000400001E8480 .reset)).responses = [0x000DBBA0] ∧
    (after 0x08000D0000000000 .reset).responses = [0] ∧ (after 0x0800280000000000 .reset).responses = [0] := by decide

/-- A cell read back; DC10. -/
theorem test_gets :
    (after 0x0900020000000000 (after 0x0200020100000000 .reset)).responses = [1] ∧
    (after 0x0900200000000000 .reset).responses = [0] := by decide

/-- DC14, DC11, DC12, DC5. -/
theorem test_getstat :
    (after 0x0A00080000000000 .reset).responses = [0x01200804] ∧ (after 0x0A000F0000000000 .reset).err = 4 ∧
    (after 0x0A00140000000000 .reset).err = 4 ∧ (after 0x0A01010000000000 .reset).responses = [0] := by decide

/-- ER7, ER8. -/
theorem test_clrdiag :
    let s := after 0x0107000000000000 (after 0x0C00000000000000 (after 0x01040000001E8480 .reset))
    (s.lastErr, (after 0x0B00000000000000 s).err, (after 0x0B00000000000000 s).lastErr) = (0x01000703, 0, 0) := by
  decide

/-- ER1, ER2, ER3. -/
theorem test_last_err :
    ((after 0x01000400001E8480 .reset).lastErr, (after 0x0C00000000000000 .reset).lastErr,
      (after 0x0107000000000000 .reset).lastErr) = (0x01040001, 0x0C00FF02, 0x01000703) := by decide

/-! Tick -/

/-- Voice 0 with loop length 4, cells 0 and 2 (T1). -/
def patterned : State := writeCell 0 0 true (writeCell 0 2 true (writeParam 0 .loopLength 4 .reset))

/-- T1: g = 0 .. 7. -/
theorem test_tick_decisions :
    (List.range 8).map (fun g => tickTriggers patterned (BitVec.ofNat 64 g) 0) =
      [true, false, true, false, true, false, true, false] := by decide

/-- T5, T6: muted, and a cell beyond the loop. -/
theorem test_tick_silent :
    (List.range 8).map (fun g => tickTriggers (writeParam 0 .mute 1 patterned) (BitVec.ofNat 64 g) 0) =
      List.replicate 8 false ∧
    (List.range 8).map (fun g => tickTriggers (writeCell 0 5 true (writeParam 0 .loopLength 2 .reset))
      (BitVec.ofNat 64 g) 0) = List.replicate 8 false := by decide

/-- ER5: an overrun of voice 2 at g = 9. -/
theorem test_overrun_record :
    ((dropTrigger 2 9 .reset).err, (dropTrigger 2 9 .reset).lastErr, ((dropTrigger 2 9 .reset).voice 2).ovrCnt) =
      (0x10, 0x00090205, 1) := by decide

/-- The tick intervals of 2.3. -/
theorem test_tick_interval :
    (tickInterval 60000, tickInterval 120000, tickInterval 240000) = (1 / 4, 1 / 8, 1 / 16) := by decide +kernel

/-! Render -/

/-- P6's parameters. -/
def smallConfig : Config := { Config.default with sampleRate := 2000 }

/-- The same of the exact arithmetic, TOL 0, so that the rules leave the quantizer one integer. -/
def exactConfig : Config := { smallConfig with numerics := ⟨.exact, .towardZero, 0, 1⟩ }

/-- P6's snapshot. -/
def smallSnapshot : Snapshot where
  params := { VoiceParams.reset smallConfig with
    osc1Freq := 500000, osc2Freq := 500000, attack := 1000, decay := 1000, release := 1000, sustain := 500000
    rightGain := 500000 }
  dur    := 2000
  config := 0
  epoch  := 0
  step   := 0

/-- M15, P6 (45_mixer_quantizer.md R204). -/
theorem test_render :
    render exactConfig 0 smallSnapshot = ⟨0, 0, 1, [(0, 0), (32767, 16383), (0, 0), (-16383, -8191)]⟩ := by
  decide +kernel

/-- E1, E2: both envelopes of one note. -/
theorem test_envelope_variants :
    linearEnvelope 2000 10000 20 2000 2000 3000 (1 / 2) =
      [0, 1/3, 2/3, 1, 1, 5/6, 2/3, 1/2, 1/2, 1/2, 1/2, 1/2, 1/2, 1/2, 1/2, 2/5, 3/10, 1/5, 1/10, 0] ∧
    squaredEnvelope 2000 20 2000 2000 3000 (1 / 2) =
      [0, 1/9, 4/9, 1, 1, 25/36, 4/9, 1/4, 1/4, 1/4, 1/4, 1/4, 1/4, 1/4, 1/4, 4/25, 9/100, 1/25, 1/100, 0] := by
  decide +kernel

/-- E3b: the sum reaches the duration exactly; E5, E7: the counts at the defaults. -/
theorem test_envelope_counts :
    linearCounts 2000 10000 3000 3000 4000 = ⟨5, 5, 7⟩ ∧ linearCounts 44100 500000 900000 900000 900000 =
      ⟨7276, 7276, 7276⟩ ∧ linearCounts 44100 500000 10000 100000 100000 = ⟨441, 4410, 4410⟩ := by decide

/-- Q5, Q8: the bands. -/
theorem test_bands :
    (List.range 3).map (bandOf 8 3) = [0, 4, 7] ∧ (List.range 5).map (bandOf 2 5) = [0, 0, 1, 1, 1] := by decide

/-- M4, M8, M9, M10: clipping and truncation. -/
theorem test_quantizer_integers :
    clampPcm (truncRat (-3 / 2 * 32767)) = -32768 ∧ truncRat (-1 / 2 * 32767) = -16383 ∧
    [(500000, 32767), (500000, -32768), (500000, -16383), (999999, 32767)].map (fun x => truncRat (channelProduct x.1 x.2))
      = [16383, -16384, -8191, 32766] := by decide +kernel

/-- R195: |p| < 1/32767 gives 0 whatever the free values are, at the default TOL. -/
theorem test_quantizer_below_one (site : RoundingSite) (admits : Int → Prop) :
    truncateProduct (1 / 1000000) site admits (ivExact (-9 / 10)) = 0 := by
  have h : truncHi (1 / 1000000) (ivExact (-9 / 10)) ≤ truncLo (1 / 1000000) (ivExact (-9 / 10)) ∧
    truncLo (1 / 1000000) (ivExact (-9 / 10)) = 0 := by decide +kernel
  rw [truncateProduct, if_pos h.1, h.2]

/-- X2: tanh(0.6) = 0.5370495669980353 to 15 places; X1 is the amount 0. -/
theorem test_distortion :
    (match distort ivArith 500000 [ivExact (1 / 10)] with
     | [a] => decide (a.hi ≤ 5370495669980355 / 10 ^ 16 ∧ 5370495669980351 / 10 ^ 16 ≤ a.lo)
     | _   => false) = true ∧ distort ivArith 0 [ivExact (17 / 10)] = [ivExact (17 / 10)] := by decide +kernel

/-! Witnesses: states and operands that meet each statement's hypotheses together -/

/-- Running, with word `w` waiting. -/
def waiting (w : CommandWord) : State := { State.reset with running := true, commandIn := [w] }

/-- The transport runs and voice 0 triggers at step 0. -/
def playing : State := { writeCell 0 0 true .reset with running := true }

/-- The same with the render of voice 0 in flight. -/
def inFlight : State := writeSnap 0 (some (takeSnapshot playing 0 0)) playing

/-- Voices 0 and 3 in flight, both triggering again. -/
def twoInFlight : State := writeSnap 3 (some (takeSnapshot playing 3 0)) (writeCell 3 0 true inFlight)

theorem inv_reset : State.reset.Inv :=
  ⟨by decide, rfl, by decide, by decide, by decide, rfl, rfl, .inl rfl, by decide, by decide⟩
theorem inv_playing : playing.Inv :=
  ⟨by decide, rfl, by decide, by decide, by decide, rfl, rfl, .inl rfl, by decide, by decide⟩
theorem inv_inFlight : inFlight.Inv :=
  ⟨by decide, rfl, by decide, by decide, by decide, rfl, rfl, .inl rfl, by decide, by decide⟩
theorem inv_patterned : patterned.Inv :=
  ⟨by decide, rfl, by decide, by decide, by decide, rfl, rfl, .inl rfl, by decide, by decide⟩

theorem inv_twoInFlight : twoInFlight.Inv :=
  ⟨by decide, rfl, by decide, by decide, by decide, rfl, rfl, .inl rfl, by decide, by decide⟩

/-- The least and the greatest parameters (00_scope.md R7 to R12). -/
theorem witness_ResetStateIsLegalAndIdle :
    Config.default.Legal ∧
    Config.Legal { Config.default with numVoices := 1, sampleRate := 2000, eqBands := 1, eqDefaultGain := 500000
                                       eqGainMax := 1000000 } ∧
    Config.Legal { Config.default with numVoices := 32, sampleRate := 192000, eqBands := 32
                                       eqGainMax := 1000000000 } ∧
    (Config.Legal { Config.default with numerics := ⟨.fixedPoint 2 46, .towardZero, 1, 1000000000⟩ } ∧
     Config.Legal { Config.default with numerics := ⟨.binary 24 127, .nearestEven, 1, 100000⟩ }) :=
  ⟨by decide, by decide, by decide, by decide, by decide⟩

theorem witness_EveryStepKeepsLegalState :
    inFlight.Inv ∧ step { inFlight with schedule := [.tick] } = .next (tick inFlight) ∧
    Host.Core.run ⟨State, Fault, Refusal, step, State.reset⟩ 1 { inFlight with schedule := [.sinkReady false] } =
      .next (driveSinkReady false inFlight) := ⟨inv_inFlight, rfl, rfl⟩

theorem witness_StepRunsDecodedCommand :
    decode 0x0400000000000000 = .ok .start ∧ Instr.WellFormed .start ∧
    (receiveWord 0x0400000000000000 .reset).commandIn = [0x0400000000000000] ∧
    (presentWord 0x0400000000000000 .reset).schedule = .command :: [] ∧
    (presentWord 0x0400000000000000 .reset).commandIn = 0x0400000000000000 :: [] ∧
    (receiveWord 0x0400000000000000 .reset).schedule = [] ∧
    (receiveWord 0x0400000000000000 .reset).running = false ∧
    (∀ v, v < 4 → (receiveWord 0x0400000000000000 .reset).busy v = false) := by decide

/-- Each clause: a tick running and stopped, a completion of a busy and of a free voice, the host with and without a
word. -/
theorem witness_ScheduledTurnsRunWhenEnabled :
    ({ playing with schedule := [.tick] } : State).schedule = .tick :: [] ∧ playing.running = true ∧
    State.reset.running = false ∧
    (({ inFlight with schedule := [.complete 0] } : State).busy 0 = true ∧ 0 < inFlight.voices.length) ∧
    ({ playing with schedule := [.complete 0] } : State).busy 0 = false ∧
    (presentWord 0x0400000000000000 playing).commandIn = 0x0400000000000000 :: [] ∧
    ({ playing with schedule := [.command] } : State).commandIn = [] := by decide

/-- None enabled; one; all three kinds. -/
theorem witness_UnscheduledStepTakesAnEnabledTurn :
    State.reset.schedule = [] ∧ enabledTurns .reset = [] ∧ enabledTurns playing = [.tick] ∧
    enabledTurns (receiveWord 0 twoInFlight) = [.command, .tick, .complete 0, .complete 3] := by decide

theorem witness_DecodeInvertsEncode :
    Instr.WellFormed (.setp 0xFF 0xFF 0xFFFFFFFF) ∧ Instr.WellFormed (.setcfg 3) := by decide

theorem witness_EncodeInvertsDecode :
    decode 0x02FFFF0100000000 = .ok (.sets 0xFF 0xFF true) ∧ decode 0x01FFFF00FFFFFFFF = .ok (.setp 0xFF 0xFF 0xFFFFFFFF) :=
  by decide

theorem witness_AcceptedWordsAreTheTableRows :
    (⟨"SETP", 0x0100000000000000, 0xFF0000FF00000000⟩ : OpcodeRow) ∈ opcodeTable ∧
    OpcodeRow.matchesWord ⟨"SETP", 0x0100000000000000, 0xFF0000FF00000000⟩ 0x01FFFF00FFFFFFFF = true := by decide

/-- No byte kept, and one short of a word. -/
theorem witness_ByteLinkCarriesWords :
    State.reset.linkBytes = [] ∧ ({ State.reset with linkBytes := [0, 0, 0, 0, 0, 3] } : State).linkBytes.length < 7 ∧
    Instr.WellFormed (.sett 240000) := by decide

/-- The first and the last reserved opcode, and for every opcode a lowest or highest malformed bit. -/
theorem witness_MalformedWordsRaiseBadCmd :
    0x0C ≤ (fieldOp 0x0C00000000000000).toNat ∧ 0x0C ≤ (fieldOp 0xFF00000000000000).toNat ∧
    (fieldOp 0x0000000000000001 = 0x00 ∧ (0x0000000000000001 : CommandWord) &&& 0x00FFFFFFFFFFFFFF ≠ 0) ∧
    (fieldOp 0x0100000100000000 = 0x01 ∧ (0x0100000100000000 : CommandWord) &&& 0x000000FF00000000 ≠ 0) ∧
    (fieldOp 0x0200000200000000 = 0x02 ∧ (0x0200000200000000 : CommandWord) &&& 0x000000FEFFFFFFFF ≠ 0) ∧
    (fieldOp 0x0380000000000000 = 0x03 ∧ (0x0380000000000000 : CommandWord) &&& 0x00FFFFFF00000000 ≠ 0) ∧
    (fieldOp 0x0480000000000000 = 0x04 ∧ (0x0480000000000000 : CommandWord) &&& 0x00FFFFFFFFFFFFFF ≠ 0) ∧
    (fieldOp 0x0500000000000001 = 0x05 ∧ (0x0500000000000001 : CommandWord) &&& 0x00FFFFFFFFFFFFFF ≠ 0) ∧
    (fieldOp 0x0600000100000000 = 0x06 ∧ (0x0600000100000000 : CommandWord) &&& 0x00FFFFFF00000000 ≠ 0) ∧
    (fieldOp 0x0700000000000004 = 0x07 ∧ (0x0700000000000004 : CommandWord) &&& 0x00FFFFFFFFFFFFFC ≠ 0) ∧
    (fieldOp 0x0800000000000001 = 0x08 ∧ (0x0800000000000001 : CommandWord) &&& 0x000000FFFFFFFFFF ≠ 0) ∧
    (fieldOp 0x0900008000000000 = 0x09 ∧ (0x0900008000000000 : CommandWord) &&& 0x000000FFFFFFFFFF ≠ 0) ∧
    (fieldOp 0x0A01000000000000 = 0x0A ∧ (0x0A01000000000000 : CommandWord) &&& 0x00FF00FFFFFFFFFF ≠ 0) ∧
    (fieldOp 0x0B00000000000001 = 0x0B ∧ (0x0B00000000000001 : CommandWord) &&& 0x00FFFFFFFFFFFFFF ≠ 0) ∧
    (fieldOp 0x0B00000000000000).toNat < 0x0C ∧
    (0x0B00000000000000 : CommandWord) &&& zeroMask (fieldOp 0x0B00000000000000) = 0 := by decide

/-- The last EQ band of the greatest machine has an id. -/
theorem witness_IndicesThatExist :
    31 < ({ Config.default with eqBands := 32 } : Config).eqBands ∧
    paramOfId { Config.default with eqBands := 32 } 0x3F = some (.eqGain 31) ∧
    paramOfId Config.default 0x28 = none := by decide

/-- Each way of missing, at its boundary. -/
theorem witness_MissingIndicesRaiseBadAddr :
    State.reset.cfg.numVoices ≤ (4 : Byte).toNat ∧ (0x0D ≤ (0x0D : Byte).toNat ∧ (0x0D : Byte).toNat ≤ 0x1F) ∧
    (0x0D ≤ (0x1F : Byte).toNat ∧ (0x1F : Byte).toNat ≤ 0x1F) ∧ 0x20 + State.reset.cfg.eqBands ≤ (0x28 : Byte).toNat ∧
    32 ≤ (32 : Byte).toNat ∧ (0x0F : Byte).toNat = 0x0F ∧ 0x10 + State.reset.cfg.numVoices ≤ (0x14 : Byte).toNat := by
  decide

/-- Each GET-class opcode: malformed, naming what is missing; and another opcode. -/
theorem witness_GetClassAnswersExactlyOnce :
    fieldOp 0x08000D0000000000 = 0x08 ∧ fieldOp 0x0900200000000000 = 0x09 ∧ fieldOp 0x0A000F0000000000 = 0x0A ∧
    decode 0x0A01010000000000 = .error (.nonzeroField 0x0A) ∧
    (decode 0x08000D0000000000 = .ok (.getp 0 13) ∧ namedParam State.reset 0 13 = none) ∧
    (decode 0x0900200000000000 = .ok (.gets 0 32) ∧ cellExists State.reset 0 32 = false) ∧
    (decode 0x0A000F0000000000 = .ok (.getstat 15) ∧ readStatus State.reset 15 = none) ∧
    ¬ (fieldOp 0x0B00000000000000 = 0x08 ∨ fieldOp 0x0B00000000000000 = 0x09 ∨ fieldOp 0x0B00000000000000 = 0x0A) := by
  decide

/-- The last voice, a scalar field and the last EQ gain, below, in and above the range; and both misses. -/
theorem witness_SetpStoresClampedValue :
    State.reset.Inv ∧ Config.default.Legal ∧ (3 : Byte).toNat < State.reset.cfg.numVoices ∧
    ⟨0x04, .attack, 1000, 900000⟩ ∈ rangeTable State.reset.cfg ∧
    ⟨0x27, .eqGain 7, 0, 4000000⟩ ∈ rangeTable State.reset.cfg ∧ (0xFFFFFFFF : Word).toInt < 1000 ∧
    (4000000 : Int) < (4000001 : Word).toInt ∧ ¬ ((1000 : Word).toInt < 1000 ∨ (900000 : Int) < (1000 : Word).toInt) ∧
    State.reset.cfg.numVoices ≤ (4 : Byte).toNat ∧ paramOfId State.reset.cfg 0x28 = none :=
  ⟨inv_reset, by decide⟩

/-- A tick, and a SETP of another field, between the SETP and the GETP. -/
theorem witness_SetpReadsBack :
    playing.Inv ∧ (0 : Byte).toNat < playing.cfg.numVoices ∧ paramOfId playing.cfg 0x04 = some .attack ∧
    exec (.setp 0 4 2000000) (receiveWord 0x0100050000000000 playing) =
      .next (after 0x01000400001E8480 (receiveWord 0x0100050000000000 playing)) ∧
    ∃ u, RunsTo (fun a x => a ≠ .reset ∧ ¬ ∃ y, RunsCommand a x (.setp 0 4 y)) [.tick, .command]
      (after 0x01000400001E8480 (receiveWord 0x0100050000000000 playing)) u := by
  refine ⟨inv_playing, by decide, by decide, rfl, _, ⟨by decide, ?_⟩, _, rfl, ⟨by decide, ?_⟩, _, rfl, rfl⟩
  · rintro ⟨y, h, _⟩; cases h
  · rintro ⟨y, _, w, rest, hw, hd⟩
    have hw' : [(0x0100050000000000 : CommandWord)] = w :: rest := hw
    cases hw'
    have : decode 0x0100050000000000 = .ok (.setp 0 5 0) := by decide
    rw [this] at hd
    cases hd

/-- The last cell of the last voice; and both misses. -/
theorem witness_SetsStoresCell :
    State.reset.Inv ∧ (3 : Byte).toNat < State.reset.cfg.numVoices ∧ (31 : Byte).toNat < 32 ∧
    State.reset.cfg.numVoices ≤ (4 : Byte).toNat ∧ 32 ≤ (32 : Byte).toNat := ⟨inv_reset, by decide⟩

theorem witness_SetcfgStoresConfiguration :
    (3 : Word) &&& 0xFFFFFFFC = 0 ∧ (4 : Word) &&& 0xFFFFFFFC ≠ 0 := by decide

theorem witness_StartRunsOrRefuses :
    playing.running = true ∧ (State.reset.running = false ∧ State.reset.sinkOk = true) ∧
    ((State.resetWith Config.default false).running = false ∧ (State.resetWith Config.default false).sinkOk = false) := by
  decide

theorem witness_StopClearsRunningAndCountsEpoch : playing.running = true ∧ State.reset.running = false := by decide

theorem witness_GetpRespondsField :
    (3 : Byte).toNat < State.reset.cfg.numVoices ∧ paramOfId State.reset.cfg 0x0C = some .mute ∧
    State.reset.cfg.numVoices ≤ (4 : Byte).toNat ∧ paramOfId State.reset.cfg 0x0D = none := by decide

theorem witness_GetsRespondsCell :
    (3 : Byte).toNat < State.reset.cfg.numVoices ∧ (31 : Byte).toNat < 32 ∧
    State.reset.cfg.numVoices ≤ (4 : Byte).toNat ∧ 32 ≤ (32 : Byte).toNat := by decide

/-- Every listed index, the first and the last overrun counter, and both misses. -/
theorem witness_GetstatRespondsRegister :
    (∀ i ∈ List.range 15, (readStatus State.reset (BitVec.ofNat 8 i)).isSome = true) ∧
    (0x10 : Byte).toNat = 0x10 + 0 ∧ (0 < State.reset.cfg.numVoices) ∧ (0x13 : Byte).toNat = 0x10 + 3 ∧
    3 < State.reset.cfg.numVoices ∧ (0x0F : Byte).toNat = 0x0F ∧
    0x10 + State.reset.cfg.numVoices ≤ (0x14 : Byte).toNat := by decide

theorem witness_StatusWordsHaveTheirBits : Config.default.Legal ∧ (31 : Nat) < 32 ∧ busyWord twoInFlight = 9 := by
  decide

theorem witness_ClrdiagClearsDiagnostics : 3 < State.reset.voices.length := by decide

theorem witness_SetCommandsAreIdempotent :
    exec (.setp 0 4 2000000) .reset = .next (after 0x01000400001E8480 .reset) ∧
    exec (.sets 0 2 true) .reset = .next (after 0x0200020100000000 .reset) ∧
    exec (.sett 0) .reset = .next (after 0x0300000000000000 .reset) ∧
    exec (.setd 0) .reset = .next (after 0x0600000000000000 .reset) ∧
    exec (.setcfg 1) .reset = .next (after 0x0700000000000001 .reset) := ⟨rfl, rfl, rfl, rfl, rfl⟩

/-- Each command, of what exists and of what is missing. -/
theorem witness_GetCommandsOnlyRespond :
    (∃ v p, Instr.getp 0 4 = .getp v p) ∧ (∃ v k, Instr.gets 0 2 = .gets v k) ∧ (∃ k, Instr.getstat 8 = .getstat k) ∧
    (namedParam .reset 0 4 = some .attack ∧ namedParam .reset 0 13 = none) ∧
    (cellExists .reset 3 31 = true ∧ cellExists .reset 0 32 = false) ∧
    ((readStatus .reset 8).isSome = true ∧ readStatus .reset 15 = none) :=
  ⟨⟨_, _, rfl⟩, ⟨_, _, rfl⟩, ⟨_, rfl⟩, by decide, by decide, by decide⟩

/-- A flag set, and a tick that raises another. -/
theorem witness_ErrorFlagsAreSticky :
    let s : State := { inFlight with err := 1, schedule := [.tick] }
    let u : State := { inFlight with err := 1 }
    nextTurn s = some (.tick, u) ∧ runTurn .tick u = .next (tick u) ∧ Turn.tick ≠ .reset ∧
    ¬ RunsCommand .tick u .clrdiag ∧ s.err.getLsbD 0 = true ∧ (tick u).err = 17 :=
  ⟨rfl, rfl, by decide, fun h => Turn.noConfusion h.1, by decide, by decide +kernel⟩

/-- For each register a step that changes it: START, STOP, SETT, SETD, SETCFG and a tick. -/
theorem witness_ControlRegistersHaveTheirWriters :
    (∀ w, nextTurn (presentWord w .reset) = some (.command, receiveWord w .reset)) ∧ Turn.command ≠ .reset ∧
    (after 0x0400000000000000 .reset).running ≠ State.reset.running ∧ (after 0x0500000000000000 playing).epoch ≠ playing.epoch ∧
    (after 0x030000000003A980 .reset).tempo ≠ State.reset.tempo ∧
    (after 0x06000000000007D0 .reset).duration ≠ State.reset.duration ∧
    (after 0x0700000000000001 .reset).config ≠ State.reset.config ∧
    runTurn .tick playing = .next (tick playing) ∧ playing.running = true :=
  ⟨fun _ => rfl, by decide, by decide, by decide, by decide, by decide, by decide, rfl, rfl⟩

/-- A tick that counts an overrun, a completion that may count a fault, and a tick that counts a trigger; a completion
that delivers, a word that is answered, and each taken off its port. -/
theorem witness_CountersHaveTheirWriters :
    nextTurn { inFlight with schedule := [.tick] } = some (.tick, inFlight) ∧
    runTurn .tick inFlight = .next (tick inFlight) ∧ Turn.tick ≠ .reset ∧ ¬ RunsCommand .tick inFlight .clrdiag ∧
    ((tick inFlight).voice 0).ovrCnt ≠ (inFlight.voice 0).ovrCnt ∧ (tick playing).trigCnt ≠ playing.trigCnt ∧
    (failRender 0 smallSnapshot inFlight).faultCnt ≠ inFlight.faultCnt ∧
    ¬ RunsCommand (.complete 0) inFlight .clrdiag ∧
    (nextTurn { inFlight with schedule := [.complete 0] } = some (.complete 0, inFlight) ∧
      (finishRender 0 (takeSnapshot playing 0 0) inFlight).delivered =
        inFlight.delivered ++ [render inFlight.cfg 0 (takeSnapshot playing 0 0)]) ∧
    (after 0x0A00080000000000 .reset).responses ≠ State.reset.responses ∧ Turn.recordOut ≠ .reset ∧
    Turn.responseOut ≠ .reset :=
  ⟨rfl, rfl, by decide, fun h => Turn.noConfusion h.1, by decide, by decide, by decide, fun h => Turn.noConfusion h.1,
    ⟨rfl, rfl⟩, by decide, by decide, by decide⟩

theorem witness_ParametersAndGridHaveTheirWriters :
    nextTurn (presentWord 0x01000400000003E8 .reset) = some (.command, receiveWord 0x01000400000003E8 .reset) ∧
    (after 0x01000400000003E8 .reset).params 0 ≠ State.reset.params 0 ∧
    ((after 0x0200020100000000 .reset).voice 0).grid ≠ (State.reset.voice 0).grid ∧ Turn.command ≠ .reset :=
  ⟨rfl, by decide, by decide, by decide⟩

/-- A SETP of the voice whose render is in flight. -/
theorem witness_SnapshotIsFrozenWhileBusy :
    nextTurn (presentWord 0x01000400000003E8 inFlight) = some (.command, receiveWord 0x01000400000003E8 inFlight) ∧
    (inFlight.voice 0).snap = some (takeSnapshot playing 0 0) ∧ Turn.command ≠ .reset ∧
    Turn.command ≠ .complete 0 := ⟨rfl, by decide, by decide, by decide⟩

/-- A voice that does not trigger, one that triggers while busy, one that triggers while free. -/
theorem witness_TickDecidesEveryVoice :
    (inFlight.Inv ∧ inFlight.running = true) ∧ (playing.Inv ∧ playing.running = true) ∧
    (1 < playing.cfg.numVoices ∧ ¬ ((playing.params 1).mute = 0 ∧ playing.gridCell 1 (0 % 32) = true)) ∧
    (0 < inFlight.cfg.numVoices ∧ (inFlight.params 0).mute = 0 ∧ inFlight.gridCell 0 (0 % 32) = true ∧
      inFlight.busy 0 = true) ∧
    (0 < playing.cfg.numVoices ∧ (playing.params 0).mute = 0 ∧ playing.gridCell 0 (0 % 32) = true ∧
      playing.busy 0 = false) := ⟨⟨inv_inFlight, rfl⟩, ⟨inv_playing, rfl⟩, by decide⟩

/-- No overrun; two, of which voice 3 is the highest. -/
theorem witness_TickRecordsOverruns :
    (twoInFlight.Inv ∧ twoInFlight.running = true) ∧ (playing.Inv ∧ playing.running = true) ∧
    (∀ v, v < 4 → playing.busy v = false) ∧ twoInFlight.busy 3 = true ∧ twoInFlight.gridCell 3 0 = true ∧
    (twoInFlight.params 3).mute = 0 ∧ ((tick twoInFlight).err, (tick twoInFlight).lastErr) = (0x10, 0x00000305) :=
  ⟨⟨inv_twoInFlight, rfl⟩, ⟨inv_playing, rfl⟩, by decide, by decide, by decide, by decide, by decide +kernel⟩

theorem witness_CellsBeyondTheLoopNeverMatter :
    patterned.Inv ∧ (patterned.params 0).loopLength ≤ 4 ∧ (patterned.params 0).loopLength ≤ 31 :=
  ⟨inv_patterned, by decide, by decide⟩

/-- The epoch unchanged, and changed by a STOP; and a machine whose renders may fail. -/
theorem witness_CompletionDeliversDiscardsOrFails :
    0 < inFlight.voices.length ∧ (inFlight.voice 0).snap = some (takeSnapshot playing 0 0) ∧
    (takeSnapshot playing 0 0).epoch = inFlight.epoch ∧
    (takeSnapshot playing 0 0).epoch ≠ (after 0x0500000000000000 inFlight).epoch ∧
    ({ inFlight with cfg := { inFlight.cfg with renderMayFail := true } } : State).cfg.renderMayFail = true := by
  decide

/-- A START and a tick come between the STOP and the completion. -/
theorem witness_StopDiscardsRendersInFlight :
    let s := receiveWord 0x0400000000000000 inFlight
    s.running = true ∧ 0 < s.voices.length ∧ (s.voice 0).snap = some (takeSnapshot playing 0 0) ∧
    (takeSnapshot playing 0 0).epoch ≠ s.epoch + 1 ∧ exec .stop s = .next (after 0x0500000000000000 s) ∧
    ∃ u, RunsTo (fun a x => a ≠ .complete 0 ∧ a ≠ .reset ∧ ¬ RunsCommand a x .stop) [.command, .tick]
      (after 0x0500000000000000 s) u := by
  refine ⟨by decide, by decide, by decide, by decide, rfl, _, ⟨by decide, by decide, ?_⟩, _, rfl,
    ⟨by decide, by decide, fun h => Turn.noConfusion h.1⟩, _, rfl, rfl⟩
  rintro ⟨_, w, rest, hw, hd⟩
  have hw' : [(0x0400000000000000 : CommandWord)] = w :: rest := hw
  cases hw'
  exact absurd hd (by decide)

/-- The last sample of P6. -/
theorem witness_RenderKeepsItsLength :
    0 < smallConfig.sampleRate ∧ 3 < smallSnapshot.dur * smallConfig.sampleRate / 1000000 ∧
    (signalPath ivArith (eqStage ivArith) smallConfig.sampleRate smallSnapshot)[3]? = some (ivExact (-1 / 2)) := by
  decide +kernel

theorem witness_SamplesStayInSixteenBits :
    smallConfig.Legal ∧ smallSnapshot.params.leftGain ≤ 1000000 ∧ smallSnapshot.params.rightGain ≤ 1000000 ∧
    0 < (render smallConfig 0 smallSnapshot).pairs.length ∧ (0 : ℚ) ≤ 1 / 100000 ∧ (-32768 : Int) ≤ -32768 := by
  refine ⟨by decide, by decide, by decide, ?_, by decide +kernel, by decide⟩
  have : (signalPath ivArith (eqStage ivArith) 2000 smallSnapshot).length = 4 := by decide +kernel
  simp only [render, renderPairs, List.length_mapIdx]
  exact lt_of_lt_of_eq (by decide) this.symm

theorem witness_LinearRampsFitTheNote : 0 < 3000 + 3000 + 4000 ∧ 0 < 1 + 0 + 0 := by decide

/-- Every clause: A ≥ 2, a plateau, R ≥ 2; and R = 1, A = 1. -/
theorem witness_LinearEnvelopeShape :
    (let c : RampCounts := ⟨4, 4, 6⟩; c.a + c.d + c.r ≤ 20 ∧ 2 ≤ c.a ∧ c.a + c.d ≤ 8 ∧ 8 < 20 - c.r ∧ 2 ≤ c.r) ∧
    (let c : RampCounts := ⟨1, 1, 1⟩; c.a + c.d + c.r ≤ 4 ∧ 1 ≤ c.a ∧ c.r = 1) := by decide

/-- Either variant; the times reach the duration. -/
theorem witness_EnvelopeLiesInUnitRange :
    smallSnapshot.params.sustain ≤ 1000000 ∧ 0 ∈ envelope 2000 4 smallSnapshot ∧
    ({ smallSnapshot with config := 1 } : Snapshot).config.getLsbD 0 = true ∧ smallSnapshot.config.getLsbD 0 = false ∧
    (1000 ≤ smallSnapshot.params.attack ∧ smallSnapshot.params.attack ≤ 900000) ∧
    (1000 ≤ smallSnapshot.params.decay ∧ smallSnapshot.params.decay ≤ 900000) ∧
    (1000 ≤ smallSnapshot.params.release ∧ smallSnapshot.params.release ≤ 900000) := by decide +kernel

/-- Either side of the switch. -/
theorem witness_LevelDbConvertsBack :
    smallSnapshot.config.getLsbD 1 = false ∧ ({ smallSnapshot with config := 2 } : Snapshot).config.getLsbD 1 = true := by
  decide

theorem witness_BandsPartitionTheBins : 1 ≤ 8 ∧ 2 ≤ 3 ∧ 2 < 3 ∧ bandOf 8 3 2 = 7 := by decide

theorem witness_ToneIsTheMeanOfTwoSines : 0 < 2000 := by decide

theorem witness_EqOutputIsReal : 2 < ([1, 2, 3] : List ℝ).length ∧ 1 < ([1, 2, 3] : List ℝ).length / 2 + 1 := by simp

theorem witness_UniformGainScalesTheBuffer : 1 ≤ 1 ∧ 1 ≤ 32 := by decide

theorem witness_DistortionBoundsOrPassesThrough :
    0 < 1 ∧ Real.tanh ((1 + 10 * (((1 : ℕ) : ℝ) / 1000000)) * 0) ∈ distort realArith 1 [0] := by
  refine ⟨by decide, ?_⟩
  simp [distort, realArith, distortionGain]

theorem witness_TanhIsEnclosed : Encloses ⟨-1, 2⟩ (0 : ℝ) ∧ (⟨-1, 2⟩ : Iv).lo ≤ (⟨-1, 2⟩ : Iv).hi :=
  ⟨by constructor <;> norm_num, by decide +kernel⟩

theorem witness_RenderEnclosesTheExactRender :
    smallConfig.Legal ∧ LegalSnapshot smallConfig smallSnapshot := by decide +kernel

/-- The default TOL, an exact product, an admitted integer, and one between the bounds; and the first sample of P6. -/
theorem witness_QuantizerAdmitsEveryAllowedInteger :
    ((0 : ℚ) ≤ 1 / 1000000 ∧ (1 / 1000000 : ℚ) ≤ 1 / 2) ∧ Encloses (ivExact (7 / 2)) ((7 / 2 : ℚ) : ℝ) ∧
    Admitted (1 / 1000000) ((7 / 2 : ℚ) : ℝ) (truncReal ((7 / 2 : ℚ) : ℝ)) ∧
    (((1 / 1000000 : ℚ) : ℝ) * |((7 / 2 : ℚ) : ℝ)| < 1 / 2) ∧
    (ivExact (7 / 2)).hi - (ivExact (7 / 2)).lo ≤ (1 / 1000000 : ℚ) / 2 ∧
    (truncLo (1 / 1000000) (ivExact 3) ≤ 2 ∧ 2 ≤ truncHi (1 / 1000000) (ivExact 3)) ∧
    smallConfig.Legal ∧ Encloses (ivExact 0) ((referencePath smallConfig.sampleRate smallSnapshot).getD 9 0) ∧
    (ivExact 0).hi - (ivExact 0).lo ≤ 1 / 10 ^ 15 ∧ smallSnapshot.params.leftGain ≤ 1000000 ∧
    smallSnapshot.params.rightGain ≤ 1000000 := by
  refine ⟨by decide +kernel, ivExact_encloses _, ⟨_, by simp, rfl⟩, ?_, by decide +kernel, by decide +kernel,
    by decide, ?_, by decide +kernel, by decide, by decide⟩
  · rw [abs_of_pos (by norm_num)]; norm_num
  · have h : (envelope smallConfig.sampleRate (renderLength smallConfig.sampleRate smallSnapshot.dur) smallSnapshot).length
        ≤ 9 := by decide +kernel
    rw [List.getD_eq_default]
    · constructor <;> simp [ivExact]
    · simp only [referencePath, signalPath, mixLevel, applyEnvelope]
      split <;> simp <;> exact .inl h

/-- A state with a pattern and a changed field, and the state after reset. -/
theorem witness_LoadReproducesTheSavedState :
    patterned.Inv ∧ State.reset.Inv ∧ patterned.cfg = State.reset.cfg ∧ 3 < patterned.cfg.numVoices :=
  ⟨inv_patterned, inv_reset, rfl, by decide⟩

end Sys2Proof.Tests
end

section
/-! PROOFS. The step's sine and cosine: the two series, π to forty places, and the quadrants (log entry 20). -/

namespace Sys2Proof.Machine
open Sys2Proof

/-- The interval contains the exact value and is no wider than `w`. -/
def EnclosesWithin (w : ℚ) (a : Iv) (x : ℝ) : Prop := Encloses a x ∧ a.hi - a.lo ≤ w

theorem EnclosesWithin.order {w : ℚ} {a : Iv} {x : ℝ} (h : EnclosesWithin w a x) : a.lo ≤ a.hi :=
  (Rat.cast_le (K := ℝ)).mp (h.1.1.trans h.1.2)

theorem EnclosesWithin.mono {v w : ℚ} {a : Iv} {x : ℝ} (h : EnclosesWithin v a x) (hvw : v ≤ w) :
    EnclosesWithin w a x :=
  ⟨h.1, h.2.trans hvw⟩

/-- The end points lie within the width of the exact value. -/
theorem EnclosesWithin.endpoints {w : ℚ} {a : Iv} {x : ℝ} (h : EnclosesWithin w a x) :
    x - w ≤ (a.lo : ℝ) ∧ (a.hi : ℝ) ≤ x + w := by
  obtain ⟨⟨h1, h2⟩, h3⟩ := h
  have h3' := (Rat.cast_le (K := ℝ)).mpr h3
  push_cast at h3'
  constructor <;> linarith

theorem ivExact_enclosesWithin {w : ℚ} (hw : 0 ≤ w) (q : ℚ) : EnclosesWithin w (ivExact q) (q : ℝ) :=
  ⟨ivExact_encloses q, by simpa [ivExact] using hw⟩

theorem ivNeg_enclosesWithin {w : ℚ} {a : Iv} {x : ℝ} (h : EnclosesWithin w a x) : EnclosesWithin w (ivNeg a) (-x) :=
  ⟨ivNeg_encloses h.1, by unfold ivNeg; linarith [h.2]⟩

theorem gridFloor_nonneg {q : ℚ} (h : 0 ≤ q) : 0 ≤ gridFloor q := by
  have : (0 : ℤ) ≤ (q * 10 ^ 48).floor := Rat.le_floor_iff.mpr (by push_cast; positivity)
  unfold gridFloor
  positivity

/-- The partial sums of exp(i·x) carry the two series: the cosine's as real part, the sine's as imaginary part. -/
theorem sum_exp_mul_I (x : ℚ) (m : ℕ) :
    ∑ k ∈ Finset.range (2 * m), ((x : ℂ) * Complex.I) ^ k / (k.factorial : ℂ) =
      (((cosSeries x m : ℚ) : ℝ) : ℂ) + (((sinSeries x m : ℚ) : ℝ) : ℂ) * Complex.I := by
  induction m with
  | zero => simp [cosSeries, sinSeries]
  | succ m ih =>
    have even : ((x : ℂ) * Complex.I) ^ (2 * m) = (-1) ^ m * (x : ℂ) ^ (2 * m) := by
      rw [mul_pow, pow_mul Complex.I, Complex.I_sq]; ring
    rw [show 2 * (m + 1) = 2 * m + 1 + 1 by ring, Finset.sum_range_succ, Finset.sum_range_succ, ih, pow_succ, even]
    simp only [cosSeries, sinSeries]
    push_cast
    ring

/-- Both series with 17 terms are within 10^-41 of cosine and sine, for an argument up to 4/5. -/
theorem trigSeries_error {x : ℚ} (h0 : 0 ≤ x) (h1 : x ≤ 4 / 5) :
    |Real.cos x - (cosSeries x 17 : ℚ)| ≤ 1 / 10 ^ 41 ∧ |Real.sin x - (sinSeries x 17 : ℚ)| ≤ 1 / 10 ^ 41 := by
  have hx0 : (0 : ℝ) ≤ (x : ℝ) := by exact_mod_cast h0
  have hx1 : (x : ℝ) ≤ 4 / 5 := by simpa using (Rat.cast_le (K := ℝ)).mpr h1
  have norm_eq : ‖(x : ℂ) * Complex.I‖ = (x : ℝ) := by
    rw [norm_mul, Complex.norm_I, mul_one, ← Complex.ofReal_ratCast, Complex.norm_real, Real.norm_of_nonneg hx0]
  have remainder := Complex.exp_bound (x := (x : ℂ) * Complex.I) (by rw [norm_eq]; linarith) (n := 2 * 17)
    (by norm_num)
  rw [norm_eq, sum_exp_mul_I] at remainder
  have small : (x : ℝ) ^ (2 * 17) * (((2 * 17).succ : ℝ) * (((2 * 17).factorial : ℝ) * ((2 * 17 : ℕ) : ℝ))⁻¹) ≤
      1 / 10 ^ 41 :=
    calc _ ≤ (4 / 5 : ℝ) ^ (2 * 17) * (((2 * 17).succ : ℝ) * (((2 * 17).factorial : ℝ) * ((2 * 17 : ℕ) : ℝ))⁻¹) := by
          gcongr
      _ ≤ 1 / 10 ^ 41 := by norm_num [Nat.factorial]
  have split_parts (z : ℂ) (c t : ℝ) :
      (z - (c + t * Complex.I)).re = z.re - c ∧ (z - (c + t * Complex.I)).im = z.im - t := by
    simp
  rw [← Complex.ofReal_ratCast] at remainder
  set d := Complex.exp (((x : ℝ) : ℂ) * Complex.I) -
    ((((cosSeries x 17 : ℚ) : ℝ) : ℂ) + (((sinSeries x 17 : ℚ) : ℝ) : ℂ) * Complex.I) with hd
  obtain ⟨hre, him⟩ := split_parts (Complex.exp (((x : ℝ) : ℂ) * Complex.I)) (cosSeries x 17 : ℚ)
    (sinSeries x 17 : ℚ)
  rw [← hd, Complex.exp_ofReal_mul_I_re] at hre
  rw [← hd, Complex.exp_ofReal_mul_I_im] at him
  exact ⟨hre ▸ (Complex.abs_re_le_norm d).trans (remainder.trans small),
    him ▸ (Complex.abs_im_le_norm d).trans (remainder.trans small)⟩

/-- On [0, 1] the sine tells on which side of π/6 an angle lies. -/
theorem sin_le_half_iff {y : ℝ} (h0 : 0 ≤ y) (h1 : y ≤ 1) : Real.sin y ≤ 1 / 2 ↔ y ≤ Real.pi / 6 := by
  have := Real.pi_gt_three
  rw [← Real.sin_pi_div_six]
  exact Real.strictMonoOn_sin.le_iff_le ⟨by linarith, by linarith⟩ ⟨by linarith, by linarith⟩

/-- A rational whose sine the series puts at or below 1/2 is at most π/6. -/
theorem le_pi_div_six {y : ℚ} (h0 : 0 ≤ y) (h1 : y ≤ 4 / 5) (h : sinSeries y 17 + 1 / 10 ^ 41 ≤ 1 / 2) :
    (y : ℝ) ≤ Real.pi / 6 := by
  have h' := (Rat.cast_le (K := ℝ)).mpr h
  have h0' := (Rat.cast_le (K := ℝ)).mpr h0
  have h1' := (Rat.cast_le (K := ℝ)).mpr h1
  push_cast at h' h0' h1'
  refine (sin_le_half_iff h0' (by linarith)).mp ?_
  linarith [(abs_le.mp (trigSeries_error h0 h1).2).2]

/-- A rational whose sine the series puts above 1/2 is at least π/6. -/
theorem pi_div_six_le {y : ℚ} (h0 : 0 ≤ y) (h1 : y ≤ 4 / 5) (h : 1 / 2 < sinSeries y 17 - 1 / 10 ^ 41) :
    Real.pi / 6 ≤ (y : ℝ) := by
  have h' := (Rat.cast_lt (K := ℝ)).mpr h
  have h0' := (Rat.cast_le (K := ℝ)).mpr h0
  have h1' := (Rat.cast_le (K := ℝ)).mpr h1
  push_cast at h' h0' h1'
  refine le_of_not_ge fun hy => absurd ((sin_le_half_iff h0' (by linarith)).mpr hy) (not_le.mpr ?_)
  linarith [(abs_le.mp (trigSeries_error h0 h1).2).1]

/-- `piLow` is π within 10^-40: the sine of a sixth of it, less or more than that, lies on either side of 1/2. -/
theorem abs_pi_sub_piLow : |Real.pi - piLow| ≤ 1 / 10 ^ 40 := by
  have below := le_pi_div_six (y := (piLow - 1 / 10 ^ 40) / 6) (by decide +kernel) (by decide +kernel)
    (by decide +kernel)
  have above := pi_div_six_le (y := (piLow + 1 / 10 ^ 40) / 6) (by decide +kernel) (by decide +kernel)
    (by decide +kernel)
  push_cast at below above
  exact abs_le.mpr ⟨by linarith, by linarith⟩

/-- The interval of `trigRadius` around a number rounded to the grid encloses what lies within half of that of it. -/
theorem trigRadius_enclosesWithin {s : ℚ} {x : ℝ} (h : |x - s| ≤ 1 / 10 ^ 40 / 2) :
    EnclosesWithin (1 / 10 ^ 38) ⟨gridFloor s - trigRadius, gridFloor s + trigRadius⟩ x := by
  have lo := (Rat.cast_le (K := ℝ)).mpr (gridFloor_le s)
  have hi := (Rat.cast_lt (K := ℝ)).mpr (lt_gridFloor_add s)
  obtain ⟨h1, h2⟩ := abs_le.mp h
  push_cast at hi
  have r : ((trigRadius : ℚ) : ℝ) = 1 / 10 ^ 40 := by simp [trigRadius]
  refine ⟨⟨?_, ?_⟩, ?_⟩
  · push_cast; rw [r]; linarith
  · push_cast; rw [r]; linarith
  · have w : 2 * trigRadius ≤ 1 / 10 ^ 38 := by decide +kernel
    linarith

/-- The angle the series takes lies in the series' range and is 2·π·t within 4·10^-41. -/
theorem angleOf_bounds {t : ℚ} (h0 : 0 ≤ t) (h1 : t ≤ 1 / 8) :
    0 ≤ angleOf t ∧ angleOf t ≤ 4 / 5 ∧ |2 * Real.pi * t - angleOf t| ≤ 4 / 10 ^ 41 := by
  have nonneg : 0 ≤ 2 * piLow * t := mul_nonneg (by decide +kernel) h0
  have low := gridFloor_le (2 * piLow * t)
  have high := (Rat.cast_lt (K := ℝ)).mpr (lt_gridFloor_add (2 * piLow * t))
  have low' := (Rat.cast_le (K := ℝ)).mpr low
  have h0' := (Rat.cast_le (K := ℝ)).mpr h0
  have h1' := (Rat.cast_le (K := ℝ)).mpr h1
  push_cast at high low' h0' h1'
  obtain ⟨p1, p2⟩ := abs_le.mp abs_pi_sub_piLow
  refine ⟨?_, ?_, abs_le.mpr ⟨?_, ?_⟩⟩
  · exact gridFloor_nonneg nonneg
  · have hpi : piLow ≤ 16 / 5 := by decide +kernel
    unfold angleOf
    nlinarith
  · unfold angleOf; nlinarith
  · unfold angleOf; nlinarith

/-- Both series at the angle of `t` turns are within half of `trigRadius` of cosine and sine. -/
theorem trigSeries_angleOf {t : ℚ} (h0 : 0 ≤ t) (h1 : t ≤ 1 / 8) :
    |Real.cos (2 * Real.pi * t) - (cosSeries (angleOf t) 17 : ℚ)| ≤ 1 / 10 ^ 40 / 2 ∧
    |Real.sin (2 * Real.pi * t) - (sinSeries (angleOf t) 17 : ℚ)| ≤ 1 / 10 ^ 40 / 2 := by
  obtain ⟨a0, a1, angle⟩ := angleOf_bounds h0 h1
  obtain ⟨c, s⟩ := trigSeries_error a0 a1
  constructor
  · refine (abs_sub_le _ (Real.cos (angleOf t)) _).trans ?_
    linarith [Real.abs_cos_sub_cos_le (2 * Real.pi * t) (angleOf t)]
  · refine (abs_sub_le _ (Real.sin (angleOf t)) _).trans ?_
    linarith [Real.abs_sin_sub_sin_le (2 * Real.pi * t) (angleOf t)]

theorem sinEighth_enclosesWithin {t : ℚ} (h0 : 0 ≤ t) (h1 : t ≤ 1 / 8) :
    EnclosesWithin (1 / 10 ^ 38) (sinEighth t) (Real.sin (2 * Real.pi * t)) := by
  unfold sinEighth
  split
  · subst t
    convert ivExact_enclosesWithin (w := 1 / 10 ^ 38) (by positivity) 0 using 1
    simp
  · exact trigRadius_enclosesWithin (trigSeries_angleOf h0 h1).2

theorem cosEighth_enclosesWithin {t : ℚ} (h0 : 0 ≤ t) (h1 : t ≤ 1 / 8) :
    EnclosesWithin (1 / 10 ^ 38) (cosEighth t) (Real.cos (2 * Real.pi * t)) := by
  unfold cosEighth
  split
  · subst t
    convert ivExact_enclosesWithin (w := 1 / 10 ^ 38) (by positivity) 1 using 1
    simp
  · exact trigRadius_enclosesWithin (trigSeries_angleOf h0 h1).1

/-- A quarter turn less `t`, as an angle. -/
theorem quarter_sub_angle (t : ℚ) : 2 * Real.pi * ((1 / 4 - t : ℚ) : ℝ) = Real.pi / 2 - 2 * Real.pi * t := by
  push_cast; ring

theorem sinQuarter_enclosesWithin {t : ℚ} (h0 : 0 ≤ t) (h1 : t ≤ 1 / 4) :
    EnclosesWithin (1 / 10 ^ 38) (sinQuarter t) (Real.sin (2 * Real.pi * t)) := by
  unfold sinQuarter
  split
  · exact sinEighth_enclosesWithin h0 ‹_›
  · have h := cosEighth_enclosesWithin (t := 1 / 4 - t) (by linarith) (by linarith)
    rwa [quarter_sub_angle, Real.cos_pi_div_two_sub] at h

theorem cosQuarter_enclosesWithin {t : ℚ} (h0 : 0 ≤ t) (h1 : t ≤ 1 / 4) :
    EnclosesWithin (1 / 10 ^ 38) (cosQuarter t) (Real.cos (2 * Real.pi * t)) := by
  unfold cosQuarter
  split
  · exact cosEighth_enclosesWithin h0 ‹_›
  · have h := sinEighth_enclosesWithin (t := 1 / 4 - t) (by linarith) (by linarith)
    rwa [quarter_sub_angle, Real.sin_pi_div_two_sub] at h

/-- The sine of `q` quarter turns and `t` turns. -/
theorem sinInQuadrant_enclosesWithin {q : ℕ} (hq : q < 4) {t : ℚ} (h0 : 0 ≤ t) (h1 : t ≤ 1 / 4) :
    EnclosesWithin (1 / 10 ^ 38) (sinInQuadrant q t) (Real.sin (2 * Real.pi * t + q * (Real.pi / 2))) := by
  have hsin := sinQuarter_enclosesWithin h0 h1
  have hcos := cosQuarter_enclosesWithin h0 h1
  match q, hq with
  | 0, _ => simpa [sinInQuadrant] using hsin
  | 1, _ => simpa [sinInQuadrant, Real.sin_add_pi_div_two] using hcos
  | 2, _ =>
    rw [show ((2 : ℕ) : ℝ) * (Real.pi / 2) = Real.pi by push_cast; ring, Real.sin_add_pi]
    exact ivNeg_enclosesWithin hsin
  | 3, _ =>
    rw [show 2 * Real.pi * (t : ℝ) + ((3 : ℕ) : ℝ) * (Real.pi / 2) = 2 * Real.pi * t + Real.pi / 2 + Real.pi by
      push_cast; ring, Real.sin_add_pi, Real.sin_add_pi_div_two]
    exact ivNeg_enclosesWithin hcos

theorem ivSinTurn_enclosesWithin (r : ℚ) :
    EnclosesWithin (1 / 10 ^ 38) (ivSinTurn r) (Real.sin (2 * Real.pi * r)) := by
  have f1 : ((4 * r).floor : ℚ) ≤ 4 * r := Int.floor_le (4 * r)
  have f2 : 4 * r < ((4 * r).floor : ℚ) + 1 := Int.lt_floor_add_one (4 * r)
  unfold ivSinTurn
  set k := (4 * r).floor
  have h := sinInQuadrant_enclosesWithin (q := (k % 4).toNat) (by omega) (t := r - (k : ℚ) / 4) (by linarith)
    (by linarith)
  have quadrant : (((k % 4).toNat : ℕ) : ℝ) = k - 4 * ((k / 4 : ℤ) : ℝ) := by
    have : (((k % 4).toNat : ℕ) : ℤ) = k - 4 * (k / 4) := by omega
    exact_mod_cast this
  rw [quadrant, ← Real.sin_add_int_mul_two_pi _ (k / 4)] at h
  convert h using 2; push_cast; ring

theorem ivCosTurn_enclosesWithin (r : ℚ) :
    EnclosesWithin (1 / 10 ^ 38) (ivCosTurn r) (Real.cos (2 * Real.pi * r)) := by
  rw [← Real.sin_add_pi_div_two]
  have h := ivSinTurn_enclosesWithin (r + 1 / 4)
  unfold ivCosTurn
  convert h using 2
  push_cast; ring

/-- Settles O56: the series' remainder, the rounding of π and that of the argument stay within `trigRadius`. -/
theorem sineIsEnclosed : Obligations.SineIsEnclosed :=
  ivSinTurn_enclosesWithin

end Sys2Proof.Machine
end

section
/-! PROOFS. The step's tanh: the series of exp(-v), its six squarings, and tanh as (1 - y)/(1 + y) (log entry 20). -/

namespace Sys2Proof.Machine
open Sys2Proof

/-- The series is that of exp(-x). -/
theorem expNegSeries_eq_sum (x : ℚ) (m : ℕ) :
    ((expNegSeries x m : ℚ) : ℝ) = ∑ k ∈ Finset.range m, (-(x : ℝ)) ^ k / (k.factorial : ℝ) := by
  induction m with
  | zero => simp [expNegSeries]
  | succ m ih =>
    rw [Finset.sum_range_succ, ← ih, neg_pow]
    simp [expNegSeries]

/-- The series with 24 terms is within 10^-23 of exp(-x) on [0, 1]. -/
theorem expNegSeries_error {x : ℚ} (h0 : 0 ≤ x) (h1 : x ≤ 1) :
    |Real.exp (-x) - (expNegSeries x 24 : ℚ)| ≤ 1 / 10 ^ 23 := by
  have h0' := (Rat.cast_le (K := ℝ)).mpr h0
  have h1' := (Rat.cast_le (K := ℝ)).mpr h1
  push_cast at h0' h1'
  have abs_le_one : |-(x : ℝ)| ≤ 1 := by rw [abs_neg, abs_of_nonneg h0']; exact h1'
  have remainder := Real.exp_bound abs_le_one (n := 24) (by norm_num)
  rw [expNegSeries_eq_sum]
  refine remainder.trans ?_
  calc |-(x : ℝ)| ^ 24 * ((24 : ℕ).succ / ((24 : ℕ).factorial * (24 : ℕ)))
      ≤ 1 ^ 24 * ((24 : ℕ).succ / ((24 : ℕ).factorial * (24 : ℕ))) := by gcongr
    _ ≤ 1 / 10 ^ 23 := by norm_num [Nat.factorial]

/-- exp(-·) moves by no more than its argument, from a non-negative one upwards. -/
theorem exp_neg_sub_le {g v : ℝ} (h0 : 0 ≤ g) (h : g ≤ v) :
    0 ≤ Real.exp (-g) - Real.exp (-v) ∧ Real.exp (-g) - Real.exp (-v) ≤ v - g := by
  have split : Real.exp (-v) = Real.exp (-g) * Real.exp (g - v) := by rw [← Real.exp_add]; ring_nf
  have le_one : Real.exp (-g) ≤ 1 := Real.exp_le_one_iff.mpr (by linarith)
  have tangent := Real.add_one_le_exp (g - v)
  have pos := Real.exp_pos (-g)
  refine ⟨sub_nonneg.mpr (Real.exp_le_exp.mpr (by linarith)), ?_⟩
  rw [split]
  nlinarith

/-- An enclosure of a value of the unit interval: no end point below 0, none above 1 by more than its width's bound. -/
def EnclosesUnit (w : ℚ) (a : Iv) (x : ℝ) : Prop := EnclosesWithin w a x ∧ 0 ≤ a.lo ∧ a.hi ≤ 1 + w

theorem EnclosesUnit.mono {v w : ℚ} {a : Iv} {x : ℝ} (h : EnclosesUnit v a x) (hvw : v ≤ w) : EnclosesUnit w a x :=
  ⟨⟨h.1.1, h.1.2.trans hvw⟩, h.2.1, by linarith [h.2.2]⟩

theorem expNegUnit_enclosesUnit {v : ℚ} (h0 : 0 ≤ v) (h1 : v ≤ 1) :
    EnclosesUnit (2 / 10 ^ 21) (expNegUnit v) (Real.exp (-v)) := by
  have g0 := gridFloor_nonneg h0
  have g1 := gridFloor_le v
  have g2 := (Rat.cast_lt (K := ℝ)).mpr (lt_gridFloor_add v)
  have g0' := (Rat.cast_le (K := ℝ)).mpr g0
  have g1' := (Rat.cast_le (K := ℝ)).mpr g1
  have h1' := (Rat.cast_le (K := ℝ)).mpr h1
  push_cast at g0' g1' g2 h1'
  obtain ⟨s1, s2⟩ := abs_le.mp (expNegSeries_error g0 (g1.trans h1))
  obtain ⟨m1, m2⟩ := exp_neg_sub_le g0' g1'
  have c1 := (Rat.cast_le (K := ℝ)).mpr (gridFloor_le (expNegSeries (gridFloor v) 24))
  have c2 := (Rat.cast_lt (K := ℝ)).mpr (lt_gridFloor_add (expNegSeries (gridFloor v) 24))
  push_cast at c2
  have le_one : Real.exp (-v) ≤ 1 := Real.exp_le_one_iff.mpr (by linarith)
  have ge_third : (1 / 3 : ℝ) ≤ Real.exp (-v) :=
    calc (1 / 3 : ℝ) ≤ (Real.exp 1)⁻¹ := by
          rw [one_div]; exact inv_anti₀ (Real.exp_pos 1) (by linarith [Real.exp_one_lt_d9])
      _ = Real.exp (-1) := (Real.exp_neg 1).symm
      _ ≤ Real.exp (-v) := Real.exp_le_exp.mpr (by linarith)
  have lo : Real.exp (-v) - 2 / 10 ^ 21 ≤ ((expNegUnit v).lo : ℝ) ∧ ((expNegUnit v).lo : ℝ) ≤ Real.exp (-v) := by
    simp only [expNegUnit, expRadius]
    push_cast
    constructor <;> linarith
  have hi : ((expNegUnit v).hi : ℝ) = (expNegUnit v).lo + 2 / 10 ^ 21 := by
    simp only [expNegUnit, expRadius]
    push_cast
    ring
  refine ⟨⟨⟨lo.2, by linarith⟩, ?_⟩, ?_, ?_⟩
  · exact (Rat.cast_le (K := ℝ)).mp (by push_cast; linarith)
  · exact (Rat.cast_le (K := ℝ)).mp (by push_cast; linarith)
  · exact (Rat.cast_le (K := ℝ)).mp (by push_cast; linarith)

/-- One squaring at most triples the bound on a unit enclosure's width. -/
theorem ivSquare_enclosesUnit {w : ℚ} {a : Iv} {x : ℝ} (h : EnclosesUnit w a x) (hw0 : 1 / 10 ^ 40 ≤ w)
    (hw1 : w ≤ 1 / 100) : EnclosesUnit (3 * w) (ivSquare a) (x ^ 2) := by
  have order := h.1.order
  obtain ⟨⟨enc, width⟩, lo0, hi1⟩ := h
  have f := lt_gridFloor_add (a.lo * a.lo)
  have c := gridCeil_lt_add (a.hi * a.hi)
  have rounding : (2 / 10 ^ 48 : ℚ) ≤ (1 / 10 ^ 40) / 10 := by norm_num
  have difference : (a.hi - a.lo) * (a.hi + a.lo) ≤ w * (2 + 2 * w) := by
    apply mul_le_mul width <;> linarith
  have square : a.hi * a.hi ≤ (1 + w) * (1 + w) := mul_self_le_mul_self (lo0.trans order) hi1
  have quadratic : w * w ≤ w * (1 / 100) := by gcongr
  refine ⟨⟨pow_two x ▸ ivSquare_encloses lo0 enc, ?_⟩, gridFloor_nonneg (mul_self_nonneg _), ?_⟩
  · change gridCeil (a.hi * a.hi) - gridFloor (a.lo * a.lo) ≤ 3 * w
    linarith
  · change gridCeil (a.hi * a.hi) ≤ 1 + 3 * w
    linarith

theorem ivSquareTimes_enclosesUnit (n : ℕ) : ∀ {w : ℚ} {a : Iv} {x : ℝ}, EnclosesUnit w a x → 1 / 10 ^ 40 ≤ w →
    3 ^ n * w ≤ 1 / 100 → EnclosesUnit (3 ^ n * w) (ivSquareTimes n a) (x ^ 2 ^ n) := by
  induction n with
  | zero => intro w a x h _ _; simpa [ivSquareTimes] using h
  | succ n ih =>
    intro w a x h hw0 hw1
    have grows : w ≤ 3 ^ (n + 1) * w :=
      le_mul_of_one_le_left (le_trans (by norm_num) hw0) (one_le_pow₀ (by norm_num))
    have step := ih (ivSquare_enclosesUnit h hw0 (grows.trans hw1)) (by linarith)
      (by rw [← mul_assoc, ← pow_succ]; exact hw1)
    rw [← mul_assoc, ← pow_succ, ← pow_mul, ← pow_succ'] at step
    exact step

theorem exp_neg_64_le : Real.exp (-64) ≤ 1 / 10 ^ 24 := by
  have power : Real.exp 64 = Real.exp 1 ^ 64 := by rw [← Real.exp_nat_mul]; norm_num
  have large : (10 : ℝ) ^ 24 ≤ Real.exp 64 :=
    calc (10 : ℝ) ^ 24 ≤ (5 / 2) ^ 64 := by norm_num
      _ ≤ Real.exp 1 ^ 64 := by gcongr; linarith [Real.exp_one_gt_d9]
      _ = Real.exp 64 := power.symm
  rw [Real.exp_neg, ← one_div]
  exact one_div_le_one_div_of_le (by positivity) large

theorem ivExpNeg_enclosesUnit {u : ℚ} (h0 : 0 ≤ u) :
    EnclosesUnit (3 / 2 / 10 ^ 18) (ivExpNeg u) (Real.exp (-u)) := by
  unfold ivExpNeg
  split
  · subst u
    refine ⟨?_, by simp [ivExact], by norm_num [ivExact]⟩
    convert ivExact_enclosesWithin (w := 3 / 2 / 10 ^ 18) (by positivity) 1 using 1
    simp
  split
  · have h64 : (64 : ℝ) ≤ u := by exact_mod_cast ‹64 ≤ u›
    refine ⟨⟨⟨?_, ?_⟩, by norm_num⟩, le_refl _, by norm_num⟩
    · simpa using (Real.exp_pos _).le
    · push_cast
      exact (Real.exp_le_exp.mpr (by linarith)).trans exp_neg_64_le
  · have unit := expNegUnit_enclosesUnit (v := u / 64) (by positivity) (by linarith)
    have squared := ivSquareTimes_enclosesUnit 6 unit (by norm_num) (by norm_num)
    rw [← Real.exp_nat_mul] at squared
    convert squared.mono (w := 3 / 2 / 10 ^ 18) (by norm_num) using 2
    push_cast; ring

theorem tanh_eq_of_exp (x : ℝ) : Real.tanh x = (1 - Real.exp (-(2 * x))) / (1 + Real.exp (-(2 * x))) := by
  have double : Real.exp (-(2 * x)) = Real.exp (-x) * Real.exp (-x) := by rw [← Real.exp_add]; ring_nf
  have inverse : Real.exp x * Real.exp (-x) = 1 := by rw [← Real.exp_add]; simp
  have pos := Real.exp_pos (-x)
  have pos' := Real.exp_pos x
  rw [Real.tanh_eq, double, div_eq_div_iff (by positivity) (by positivity)]
  linear_combination (2 * Real.exp (-x)) * inverse

/-- (1 - y)/(1 + y) decreases in y, and by at most twice as much as y grows. -/
theorem one_sub_div_one_add {K : Type} [Field K] [LinearOrder K] [IsStrictOrderedRing K] {y z : K} (h0 : 0 ≤ y)
    (h : y ≤ z) : (1 - z) / (1 + z) ≤ (1 - y) / (1 + y) ∧ (1 - y) / (1 + y) - (1 - z) / (1 + z) ≤ 2 * (z - y) := by
  have difference : (1 - y) / (1 + y) - (1 - z) / (1 + z) = 2 * (z - y) / ((1 + y) * (1 + z)) := by
    have : 0 < 1 + y := by linarith
    have : 0 < 1 + z := by linarith
    field_simp; ring
  have grown : 0 ≤ 2 * (z - y) := by linarith
  rw [← sub_nonneg, difference]
  exact ⟨div_nonneg grown (by nlinarith), div_le_self grown (by nlinarith)⟩

theorem tanhNonneg_enclosesWithin {x : ℚ} (h : 0 ≤ x) : EnclosesWithin (3 / 10 ^ 18) (tanhNonneg x) (Real.tanh x) := by
  obtain ⟨within, lo0, -⟩ := ivExpNeg_enclosesUnit (u := 2 * x) (by linarith)
  have order := within.order
  obtain ⟨⟨lo, hi⟩, width⟩ := within
  have lo0' := (Rat.cast_le (K := ℝ)).mpr lo0
  have exact_eq := tanh_eq_of_exp x
  push_cast at lo hi lo0'
  refine ⟨⟨?_, ?_⟩, ?_⟩
  · simp only [tanhNonneg]
    push_cast
    rw [exact_eq]
    exact (one_sub_div_one_add (lo0'.trans lo) hi).1
  · simp only [tanhNonneg]
    push_cast
    rw [exact_eq]
    exact (one_sub_div_one_add lo0' lo).1
  · refine (one_sub_div_one_add lo0 order).2.trans ?_
    linarith

theorem tanhAt_enclosesWithin (x : ℚ) : EnclosesWithin (3 / 10 ^ 18) (tanhAt x) (Real.tanh x) := by
  unfold tanhAt
  split
  · exact tanhNonneg_enclosesWithin ‹_›
  · have h := ivNeg_enclosesWithin (tanhNonneg_enclosesWithin (x := -x) (by linarith))
    rwa [Rat.cast_neg, Real.tanh_neg, neg_neg] at h

theorem hasDerivAt_tanh (x : ℝ) : HasDerivAt Real.tanh (1 / Real.cosh x ^ 2) x := by
  have quotient := (Real.hasDerivAt_sinh x).div (Real.hasDerivAt_cosh x) (Real.cosh_pos x).ne'
  have slope : Real.cosh x * Real.cosh x - Real.sinh x * Real.sinh x = 1 := by linarith [Real.cosh_sq_sub_sinh_sq x]
  rw [slope] at quotient
  exact quotient.congr_of_eventuallyEq (.of_forall Real.tanh_eq_sinh_div_cosh)

theorem tanh_monotone : Monotone Real.tanh :=
  monotone_of_hasDerivAt_nonneg hasDerivAt_tanh fun x => by positivity

/-- tanh grows no faster than its argument. -/
theorem tanh_sub_tanh_le {x y : ℝ} (h : x ≤ y) : Real.tanh y - Real.tanh x ≤ y - x := by
  have rest : Monotone fun z : ℝ => z - Real.tanh z :=
    monotone_of_hasDerivAt_nonneg (fun z => (hasDerivAt_id z).sub (hasDerivAt_tanh z)) fun z =>
      sub_nonneg.mpr (div_le_one_of_le₀ (one_le_pow₀ (Real.one_le_cosh z)) (by positivity))
  linarith [rest h]

theorem ivTanh_encloses {a : Iv} {x : ℝ} (h : Encloses a x) : Encloses (ivTanh a) (Real.tanh x) := by
  obtain ⟨h1, h2⟩ := h
  have f := (Rat.cast_le (K := ℝ)).mpr (gridFloor_le a.lo)
  have c := (Rat.cast_le (K := ℝ)).mpr (le_gridCeil a.hi)
  exact ⟨(tanhAt_enclosesWithin _).1.1.trans (tanh_monotone (f.trans h1)),
    (tanh_monotone (h2.trans c)).trans (tanhAt_enclosesWithin _).1.2⟩

theorem ivTanh_width {a : Iv} (h : a.lo ≤ a.hi) : (ivTanh a).hi - (ivTanh a).lo ≤ (a.hi - a.lo) + 1 / 10 ^ 17 := by
  have f := gridFloor_le a.lo
  have f' := lt_gridFloor_add a.lo
  have c := le_gridCeil a.hi
  have c' := gridCeil_lt_add a.hi
  have order := (Rat.cast_le (K := ℝ)).mpr ((f.trans h).trans c)
  have slope := tanh_sub_tanh_le order
  have lo := (tanhAt_enclosesWithin (gridFloor a.lo)).endpoints.1
  have hi := (tanhAt_enclosesWithin (gridCeil a.hi)).endpoints.2
  have key : (((ivTanh a).hi - (ivTanh a).lo : ℚ) : ℝ) ≤ ((gridCeil a.hi - gridFloor a.lo + 6 / 10 ^ 18 : ℚ) : ℝ) := by
    unfold ivTanh
    push_cast at *
    linarith
  have key' := (Rat.cast_le (K := ℝ)).mp key
  linarith [show (2 / 10 ^ 48 + 6 / 10 ^ 18 : ℚ) ≤ 1 / 10 ^ 17 by norm_num]

/-- Settles O57: tanh increases, and no faster than its argument. -/
theorem tanhIsEnclosed : Obligations.TanhIsEnclosed :=
  ⟨fun _ _ => ivTanh_encloses, fun _ => ivTanh_width⟩

end Sys2Proof.Machine
end

section
/-! PROOFS. The transform EQ of the exact render: the discrete Fourier transform and its inverse, and the one-gain short cut
(42_spectral_eq.md R151, R156, R157). -/

namespace Sys2Proof.Machine
open Sys2Proof

@[simp] theorem toComplex_cxAdd (z w : Cx ℝ) : toComplex (cxAdd realArith z w) = toComplex z + toComplex w := by
  apply Complex.ext <;> simp [toComplex, cxAdd, realArith]

@[simp] theorem toComplex_cxMul (z w : Cx ℝ) : toComplex (cxMul realArith z w) = toComplex z * toComplex w := by
  apply Complex.ext <;> simp [toComplex, cxMul, realArith, sub_eq_add_neg]

@[simp] theorem toComplex_cxConj (z : Cx ℝ) : toComplex (cxConj realArith z) = starRingEnd ℂ (toComplex z) := by
  apply Complex.ext <;> simp [toComplex, cxConj, realArith]

@[simp] theorem toComplex_cxScale (q : ℚ) (z : Cx ℝ) : toComplex (cxScale realArith q z) = (q : ℂ) * toComplex z := by
  apply Complex.ext <;> simp [toComplex, cxScale, realArith, Complex.mul_re, Complex.mul_im]

@[simp] theorem toComplex_cxReal (x : ℝ) : toComplex (cxReal realArith x) = (x : ℂ) := by
  apply Complex.ext <;> simp [toComplex, cxReal, realArith]

@[simp] theorem toComplex_cxTurn (r : ℚ) :
    toComplex (cxTurn realArith r) = Complex.exp (2 * Real.pi * Complex.I * r) := by
  have angle : 2 * Real.pi * Complex.I * r = ((2 * Real.pi * r : ℝ) : ℂ) * Complex.I := by push_cast; ring
  rw [angle]
  apply Complex.ext
  · rw [Complex.exp_ofReal_mul_I_re]; rfl
  · rw [Complex.exp_ofReal_mul_I_im]; rfl

/-- The sum of a list made by index, as a sum over the indices. -/
theorem toComplex_cxSum_mapIdx {α : Type} (d : α) (l : List α) : ∀ f : ℕ → α → Cx ℝ,
    toComplex (cxSum realArith (l.mapIdx f)) = ∑ n ∈ Finset.range l.length, toComplex (f n (l.getD n d)) := by
  induction l with
  | nil => intro f; exact (toComplex_cxReal _).trans (by simp [realArith])
  | cons x xs ih =>
    intro f
    have head : toComplex (cxSum realArith ((x :: xs).mapIdx f)) =
        toComplex (f 0 x) + toComplex (cxSum realArith (xs.mapIdx fun n => f (n + 1))) := by
      rw [List.mapIdx_cons]
      exact toComplex_cxAdd _ _
    rw [head, ih, List.length_cons, Finset.sum_range_succ', add_comm]
    simp

/-- The model's forward bin is the transform's (42_spectral_eq.md R151). -/
theorem toComplex_forwardBin (x : List ℝ) (k : ℕ) : toComplex (forwardBin realArith x k) = referenceBin x k := by
  rw [forwardBin, toComplex_cxSum_mapIdx 0]
  refine Finset.sum_congr rfl fun n _ => ?_
  simp only [toComplex_cxMul, toComplex_cxReal, toComplex_cxTurn]
  push_cast
  congr 2
  ring

/-- A bin of the gained spectrum (42_spectral_eq.md R155). -/
theorem toComplex_gainedBins (gains : List ℕ) (x : List ℝ) {k : ℕ} (hk : k < binCount x.length) (d : Cx ℝ) :
    toComplex ((gainedBins realArith gains x).getD k d) =
      (bandGain gains (bandOf gains.length (binCount x.length) k) : ℂ) * referenceBin x k := by
  simp [gainedBins, List.getD_eq_getElem?_getD, hk, toComplex_forwardBin]

/-- A bin of the Hermitian extension (42_spectral_eq.md R156). -/
theorem toComplex_hermitian (n : ℕ) (y : List (Cx ℝ)) {k : ℕ} (hk : k < n) (d : Cx ℝ) :
    toComplex ((hermitian realArith n y).getD k d) =
      if k < y.length then toComplex (y.getD k (cxReal realArith (realArith.rat 0)))
      else starRingEnd ℂ (toComplex (y.getD (n - k) (cxReal realArith (realArith.rat 0)))) := by
  simp only [hermitian, List.getD_eq_getElem?_getD, List.getElem?_map, List.getElem?_range hk, Option.map_some,
    Option.getD_some]
  split <;> simp

/-- The model's inverse transform is the transform's (42_spectral_eq.md R156). -/
theorem toComplex_inverseSample (z : List (Cx ℝ)) (n : ℕ) (d : Cx ℝ) :
    toComplex (inverseSample realArith z n) = 1 / (z.length : ℂ) * ∑ k ∈ Finset.range z.length,
      toComplex (z.getD k d) * Complex.exp (2 * Real.pi * Complex.I * (k : ℂ) * (n : ℂ) / (z.length : ℂ)) := by
  rw [inverseSample, toComplex_cxScale, toComplex_cxSum_mapIdx d]
  push_cast
  congr 1
  refine Finset.sum_congr rfl fun k _ => ?_
  simp only [toComplex_cxMul, toComplex_cxTurn]
  push_cast
  congr 2
  ring

@[simp] theorem length_gainedBins {α : Type} (A : Arith α) (gains : List ℕ) (x : List α) :
    (gainedBins A gains x).length = binCount x.length := by
  simp [gainedBins]

@[simp] theorem length_hermitian {α : Type} (A : Arith α) (n : ℕ) (y : List (Cx α)) :
    (hermitian A n y).length = n := by
  simp [hermitian]

/-- The transform of a real buffer is Hermitian. -/
theorem conj_referenceBin (x : List ℝ) {k : ℕ} (hk : k ≤ x.length) :
    starRingEnd ℂ (referenceBin x (x.length - k)) = referenceBin x k := by
  unfold referenceBin
  rw [map_sum]
  refine Finset.sum_congr rfl fun n hn => ?_
  have hN : (x.length : ℂ) ≠ 0 := by
    have := Finset.mem_range.mp hn
    exact_mod_cast (by omega : x.length ≠ 0)
  rw [map_mul, Complex.conj_ofReal, ← Complex.exp_conj]
  congr 1
  refine Complex.exp_eq_exp_iff_exists_int.mpr ⟨n, ?_⟩
  simp only [map_div₀, map_mul, map_neg, map_natCast, map_ofNat, Complex.conj_I, Complex.conj_ofReal]
  rw [Nat.cast_sub hk]
  push_cast
  field_simp
  ring

/-- The roots of unity are orthogonal. -/
theorem sum_exp_mul_exp {N m n : ℕ} (hm : m < N) (hn : n < N) :
    ∑ k ∈ Finset.range N, Complex.exp (-2 * Real.pi * Complex.I * (k : ℂ) * (m : ℂ) / (N : ℂ)) *
      Complex.exp (2 * Real.pi * Complex.I * (k : ℂ) * (n : ℂ) / (N : ℂ)) = if m = n then (N : ℂ) else 0 := by
  have hN : (N : ℂ) ≠ 0 := by exact_mod_cast (by omega : N ≠ 0)
  have root := Complex.isPrimitiveRoot_exp N (by omega)
  set w := Complex.exp (2 * Real.pi * Complex.I / N) ^ ((n : ℤ) - m) with hw
  have power (k : ℕ) : Complex.exp (-2 * Real.pi * Complex.I * (k : ℂ) * (m : ℂ) / (N : ℂ)) *
      Complex.exp (2 * Real.pi * Complex.I * (k : ℂ) * (n : ℂ) / (N : ℂ)) = w ^ k := by
    rw [hw, ← Complex.exp_int_mul, ← Complex.exp_nat_mul, ← Complex.exp_add]
    congr 1; push_cast; field_simp; ring
  rw [Finset.sum_congr rfl fun k _ => power k]
  split
  · subst m; simp [hw]
  · have w_ne : w ≠ 1 := by
      rw [hw, Ne, root.zpow_eq_one_iff_dvd]
      intro dvd
      have := Int.eq_zero_of_abs_lt_dvd dvd (by rw [abs_lt]; omega)
      omega
    have w_pow : w ^ N = 1 := by
      rw [hw, ← zpow_natCast, ← zpow_mul, mul_comm _ (N : ℤ), zpow_mul, zpow_natCast, root.pow_eq_one, one_zpow]
    rw [geom_sum_eq w_ne, w_pow, sub_self, zero_div]

/-- The inverse transform undoes the forward one. -/
theorem inverse_referenceBin (x : List ℝ) {n : ℕ} (hn : n < x.length) :
    ∑ k ∈ Finset.range x.length, referenceBin x k *
      Complex.exp (2 * Real.pi * Complex.I * (k : ℂ) * (n : ℂ) / (x.length : ℂ)) =
        (x.length : ℂ) * (x.getD n 0 : ℝ) := by
  unfold referenceBin
  simp only [Finset.sum_mul]
  rw [Finset.sum_comm]
  have column (m : ℕ) (hm : m ∈ Finset.range x.length) : ∑ k ∈ Finset.range x.length,
      (x.getD m 0 : ℂ) * Complex.exp (-2 * Real.pi * Complex.I * (k : ℂ) * (m : ℂ) / (x.length : ℂ)) *
        Complex.exp (2 * Real.pi * Complex.I * (k : ℂ) * (n : ℂ) / (x.length : ℂ)) =
      if m = n then (x.length : ℂ) * (x.getD n 0 : ℝ) else 0 := by
    simp only [mul_assoc (x.getD m 0 : ℂ)]
    rw [← Finset.mul_sum, sum_exp_mul_exp (Finset.mem_range.mp hm) hn]
    split
    · subst m; exact mul_comm _ _
    · exact mul_zero _
  rw [Finset.sum_congr rfl column]
  simp [hn]

theorem bandGain_replicate {b c j : ℕ} (h : j < b) : bandGain (List.replicate b c) j = (c : ℚ) / 1000000 := by
  simp [bandGain, List.getD_eq_getElem?_getD, h]

theorem bandOf_lt {b : ℕ} (h : 0 < b) (kk k : ℕ) : bandOf b kk k < b := by
  unfold bandOf; split <;> omega

/-- With one gain in every band every bin of the Hermitian extension is the transform's times that gain. -/
theorem toComplex_hermitian_replicate {b : ℕ} (hb : 1 ≤ b) (c : ℕ) (x : List ℝ) {k : ℕ} (hk : k < x.length)
    (d : Cx ℝ) :
    toComplex ((hermitian realArith x.length (gainedBins realArith (List.replicate b c) x)).getD k d) =
      (((c : ℚ) / 1000000 : ℚ) : ℂ) * referenceBin x k := by
  have bin {j : ℕ} (hj : j < binCount x.length) (e : Cx ℝ) :
      toComplex ((gainedBins realArith (List.replicate b c) x).getD j e) =
        (((c : ℚ) / 1000000 : ℚ) : ℂ) * referenceBin x j := by
    rw [toComplex_gainedBins _ _ hj, bandGain_replicate (by rw [List.length_replicate]; exact bandOf_lt hb _ _)]
  rw [toComplex_hermitian _ _ hk, length_gainedBins]
  split
  · exact bin ‹_› _
  · have mirrored : x.length - k < binCount x.length := by unfold binCount at *; omega
    rw [bin mirrored, map_mul, conj_referenceBin x hk.le]
    congr 1
    exact map_ratCast _ _

/-- With one gain in every band the transform EQ scales the buffer (42_spectral_eq.md R157). -/
theorem spectralEq_replicate {b : ℕ} (hb : 1 ≤ b) (c : ℕ) (x : List ℝ) :
    spectralEq realArith (List.replicate b c) x = x.map (realArith.scale ((c : ℚ) / 1000000)) := by
  refine List.ext_getElem (by simp [spectralEq]) fun n h1 h2 => ?_
  have hn : n < x.length := by simpa using h2
  have hN : (x.length : ℂ) ≠ 0 := by exact_mod_cast (by omega : x.length ≠ 0)
  have sample : toComplex (inverseSample realArith (hermitian realArith x.length
      (gainedBins realArith (List.replicate b c) x)) n) = (((c : ℚ) / 1000000 * x.getD n 0 : ℝ) : ℂ) := by
    rw [toComplex_inverseSample _ _ ⟨0, 0⟩, length_hermitian]
    rw [Finset.sum_congr rfl fun k hk => by
      rw [toComplex_hermitian_replicate hb c x (Finset.mem_range.mp hk), mul_assoc]]
    rw [← Finset.mul_sum, inverse_referenceBin x hn]
    push_cast
    field_simp
  have re := congrArg Complex.re sample
  simpa [spectralEq, realArith, toComplex, hn] using re

/-- The EQ stage's short cut changes nothing on the reals (42_spectral_eq.md R157; log entry 18). -/
theorem eqStage_realArith {gains : List ℕ} (h : gains ≠ []) (x : List ℝ) :
    eqStage realArith gains x = spectralEq realArith gains x := by
  unfold eqStage
  split
  · rfl
  · next g rest =>
    split
    · next uniform =>
      have replicated : g :: rest = List.replicate (rest.length + 1) g :=
        List.eq_replicate_iff.mpr ⟨rfl, fun a ha => by simpa using (List.all_eq_true.mp uniform) a ha⟩
      rw [replicated, spectralEq_replicate (by omega)]
    · rfl

end Sys2Proof.Machine
end

section
/-! PROOFS. The signal path on enclosures against the signal path on the reals: how wide each stage's intervals are, stage
after stage (00_scope.md R12; log entries 10 and 20). -/

namespace Sys2Proof.Machine
open Sys2Proof

/-- The interval contains the exact value, is no wider than `w`, and reaches no further from 0 than `b`. -/
def Tight (b w : ℚ) (a : Iv) (x : ℝ) : Prop := EnclosesWithin w a x ∧ -b ≤ a.lo ∧ a.hi ≤ b

theorem ivScale_enclosesWithin {c w q : ℚ} {a : Iv} {x : ℝ} (hq : |q| ≤ c) (h : EnclosesWithin w a x) :
    EnclosesWithin (c * w) (ivScale q a) ((q : ℝ) * x) := by
  have width : |q| * (a.hi - a.lo) ≤ c * w :=
    mul_le_mul hq h.2 (sub_nonneg.mpr h.order) ((abs_nonneg q).trans hq)
  refine ⟨ivScale_encloses q h.1, le_trans (le_of_eq ?_) width⟩
  unfold ivScale
  split
  · rw [abs_of_nonneg ‹_›]; ring
  · rw [abs_of_neg (not_le.mp ‹_›)]; ring

theorem Tight.mono {b c v w : ℚ} {a : Iv} {x : ℝ} (h : Tight b v a x) (hb : b ≤ c) (hw : v ≤ w) :
    Tight c w a x :=
  ⟨h.1.mono hw, by linarith [h.2.1], by linarith [h.2.2]⟩

theorem Tight.bounds_nonneg {b w : ℚ} {a : Iv} {x : ℝ} (h : Tight b w a x) : 0 ≤ b ∧ 0 ≤ w := by
  obtain ⟨e, h1, h2⟩ := h
  exact ⟨by linarith [e.order], by linarith [e.order, e.2]⟩

theorem tight_exact {b w q : ℚ} (hq : |q| ≤ b) (hw : 0 ≤ w) : Tight b w (ivExact q) (q : ℝ) :=
  ⟨ivExact_enclosesWithin hw q, (abs_le.mp hq).1, (abs_le.mp hq).2⟩

theorem Tight.add {b c v w : ℚ} {s t : Iv} {x y : ℝ} (hs : Tight b v s x) (ht : Tight c w t y) :
    Tight (b + c) (v + w) (ivAdd s t) (x + y) := by
  obtain ⟨⟨es, ws⟩, ls, us⟩ := hs
  obtain ⟨⟨et, wt⟩, lt, ut⟩ := ht
  refine ⟨⟨ivAdd_encloses es et, ?_⟩, ?_, ?_⟩ <;> simp only [ivAdd] <;> linarith

theorem Tight.neg {b w : ℚ} {a : Iv} {x : ℝ} (h : Tight b w a x) : Tight b w (ivNeg a) (-x) :=
  ⟨ivNeg_enclosesWithin h.1, by simp only [ivNeg]; linarith [h.2.2], by simp only [ivNeg]; linarith [h.2.1]⟩

theorem Tight.scale {b c w q : ℚ} {a : Iv} {x : ℝ} (hq : |q| ≤ c) (h : Tight b w a x) :
    Tight (c * b) (c * w) (ivScale q a) ((q : ℝ) * x) := by
  obtain ⟨b0, -⟩ := h.bounds_nonneg
  have reach : |q| * b ≤ c * b := mul_le_mul_of_nonneg_right hq b0
  obtain ⟨e, lo, hi⟩ := h
  refine ⟨ivScale_enclosesWithin hq e, ?_⟩
  unfold ivScale
  split
  · rw [abs_of_nonneg ‹_›] at reach
    constructor <;> dsimp only <;> nlinarith
  · rw [abs_of_neg (not_le.mp ‹_›)] at reach
    have := not_le.mp ‹¬ 0 ≤ q›
    constructor <;> dsimp only <;> nlinarith

/-- A rational of the interval. -/
def Iv.Has (a : Iv) (q : ℚ) : Prop := a.lo ≤ q ∧ q ≤ a.hi

/-- A product of two rationals of the intervals. -/
def IsProductOf (s t : Iv) (r : ℚ) : Prop := ∃ p q, s.Has p ∧ t.Has q ∧ r = p * q

theorem ratMin_ind {P : ℚ → Prop} {p q : ℚ} (hp : P p) (hq : P q) : P (ratMin p q) := by
  unfold ratMin; split <;> assumption

theorem ratMax_ind {P : ℚ → Prop} {p q : ℚ} (hp : P p) (hq : P q) : P (ratMax p q) := by
  unfold ratMax; split <;> assumption

/-- The end points of a product are products of end points. -/
theorem ivMul_endpoints {s t : Iv} (hs : s.lo ≤ s.hi) (ht : t.lo ≤ t.hi) :
    IsProductOf s t (ivMul s t).lo ∧ IsProductOf s t (ivMul s t).hi := by
  have ll : IsProductOf s t (s.lo * t.lo) := ⟨_, _, ⟨le_refl _, hs⟩, ⟨le_refl _, ht⟩, rfl⟩
  have lh : IsProductOf s t (s.lo * t.hi) := ⟨_, _, ⟨le_refl _, hs⟩, ⟨ht, le_refl _⟩, rfl⟩
  have hl : IsProductOf s t (s.hi * t.lo) := ⟨_, _, ⟨hs, le_refl _⟩, ⟨le_refl _, ht⟩, rfl⟩
  have hh : IsProductOf s t (s.hi * t.hi) := ⟨_, _, ⟨hs, le_refl _⟩, ⟨ht, le_refl _⟩, rfl⟩
  exact ⟨ratMin_ind (ratMin_ind ll lh) (ratMin_ind hl hh), ratMax_ind (ratMax_ind ll lh) (ratMax_ind hl hh)⟩

theorem Tight.abs_le_of_has {b w q : ℚ} {a : Iv} {x : ℝ} (h : Tight b w a x) (hq : a.Has q) : |q| ≤ b :=
  abs_le.mpr ⟨h.2.1.trans hq.1, hq.2.trans h.2.2⟩

theorem Tight.abs_sub_le_of_has {b w p q : ℚ} {a : Iv} {x : ℝ} (h : Tight b w a x) (hp : a.Has p) (hq : a.Has q) :
    |p - q| ≤ w := by
  have width := h.1.2
  obtain ⟨p1, p2⟩ := hp
  obtain ⟨q1, q2⟩ := hq
  exact abs_le.mpr ⟨by linarith, by linarith⟩

/-- A product moves with each factor as far as the other factor's size carries it. -/
theorem Tight.mul {b c v w : ℚ} {s t : Iv} {x y : ℝ} (hs : Tight b v s x) (ht : Tight c w t y) :
    Tight (b * c) (b * w + c * v) (ivMul s t) (x * y) := by
  obtain ⟨b0, -⟩ := hs.bounds_nonneg
  obtain ⟨c0, -⟩ := ht.bounds_nonneg
  have reach {r : ℚ} (hr : IsProductOf s t r) : |r| ≤ b * c := by
    obtain ⟨p, q, hp, hq, rfl⟩ := hr
    rw [abs_mul]
    exact mul_le_mul (hs.abs_le_of_has hp) (ht.abs_le_of_has hq) (abs_nonneg q) b0
  obtain ⟨lo, hi⟩ := ivMul_endpoints hs.1.order ht.1.order
  refine ⟨⟨ivMul_encloses hs.1.1 ht.1.1, ?_⟩, (abs_le.mp (reach lo)).1, (abs_le.mp (reach hi)).2⟩
  obtain ⟨p, q, hp, hq, hlo⟩ := lo
  obtain ⟨p', q', hp', hq', hhi⟩ := hi
  calc (ivMul s t).hi - (ivMul s t).lo = p' * (q' - q) + q * (p' - p) := by rw [hlo, hhi]; ring
    _ ≤ |p' * (q' - q)| + |q * (p' - p)| := add_le_add (le_abs_self _) (le_abs_self _)
    _ = |p'| * |q' - q| + |q| * |p' - p| := by rw [abs_mul, abs_mul]
    _ ≤ b * w + c * v := add_le_add
      (mul_le_mul (hs.abs_le_of_has hp') (ht.abs_sub_le_of_has hq' hq) (abs_nonneg _) b0)
      (mul_le_mul (ht.abs_le_of_has hq) (hs.abs_sub_le_of_has hp' hp) (abs_nonneg _) c0)

/-- An enclosure of a value of [-1, 1] no wider than 1 reaches no further than 2. -/
theorem EnclosesWithin.tight {w : ℚ} {a : Iv} {x : ℝ} (h : EnclosesWithin w a x) (hw : w ≤ 1) (hx : |x| ≤ 1) :
    Tight 2 w a x := by
  obtain ⟨lo, hi⟩ := h.endpoints
  obtain ⟨x1, x2⟩ := abs_le.mp hx
  have hw' := (Rat.cast_le (K := ℝ)).mpr hw
  push_cast at hw'
  refine ⟨h, (Rat.cast_le (K := ℝ)).mp ?_, (Rat.cast_le (K := ℝ)).mp ?_⟩
  · push_cast; linarith
  · push_cast; linarith

theorem tight_sinTurn (r : ℚ) : Tight 2 (1 / 10 ^ 38) (ivArith.sinTurn r) (realArith.sinTurn r) :=
  (ivSinTurn_enclosesWithin r).tight (by norm_num) (Real.abs_sin_le_one _)

theorem tight_cosTurn (r : ℚ) : Tight 2 (1 / 10 ^ 38) (ivArith.cosTurn r) (realArith.cosTurn r) :=
  (ivCosTurn_enclosesWithin r).tight (by norm_num) (Real.abs_cos_le_one _)

/-- Both parts of a complex value are tight. -/
def TightCx (b w : ℚ) (z : Cx Iv) (u : Cx ℝ) : Prop := Tight b w z.re u.re ∧ Tight b w z.im u.im

theorem TightCx.mono {b c v w : ℚ} {z : Cx Iv} {u : Cx ℝ} (h : TightCx b v z u) (hb : b ≤ c) (hw : v ≤ w) :
    TightCx c w z u :=
  ⟨h.1.mono hb hw, h.2.mono hb hw⟩

theorem tightCx_zero {b w : ℚ} (hb : 0 ≤ b) (hw : 0 ≤ w) :
    TightCx b w (cxReal ivArith (ivArith.rat 0)) (cxReal realArith (realArith.rat 0)) :=
  ⟨tight_exact (by simpa using hb) hw, tight_exact (by simpa using hb) hw⟩

theorem tightCx_real {b w : ℚ} {a : Iv} {x : ℝ} (h : Tight b w a x) :
    TightCx b w (cxReal ivArith a) (cxReal realArith x) :=
  ⟨h, tight_exact (by simpa using h.bounds_nonneg.1) h.bounds_nonneg.2⟩

theorem tightCx_turn (r : ℚ) : TightCx 2 (1 / 10 ^ 38) (cxTurn ivArith r) (cxTurn realArith r) :=
  ⟨tight_cosTurn r, tight_sinTurn r⟩

theorem TightCx.add {b c v w : ℚ} {z₁ z₂ : Cx Iv} {u₁ u₂ : Cx ℝ} (h₁ : TightCx b v z₁ u₁) (h₂ : TightCx c w z₂ u₂) :
    TightCx (b + c) (v + w) (cxAdd ivArith z₁ z₂) (cxAdd realArith u₁ u₂) :=
  ⟨h₁.1.add h₂.1, h₁.2.add h₂.2⟩

theorem TightCx.conj {b w : ℚ} {z : Cx Iv} {u : Cx ℝ} (h : TightCx b w z u) :
    TightCx b w (cxConj ivArith z) (cxConj realArith u) :=
  ⟨h.1, h.2.neg⟩

theorem TightCx.scale {b c w q : ℚ} {z : Cx Iv} {u : Cx ℝ} (hq : |q| ≤ c) (h : TightCx b w z u) :
    TightCx (c * b) (c * w) (cxScale ivArith q z) (cxScale realArith q u) :=
  ⟨h.1.scale hq, h.2.scale hq⟩

theorem TightCx.mul {b c v w : ℚ} {z₁ z₂ : Cx Iv} {u₁ u₂ : Cx ℝ} (h₁ : TightCx b v z₁ u₁) (h₂ : TightCx c w z₂ u₂) :
    TightCx (b * c + b * c) (b * w + c * v + (b * w + c * v)) (cxMul ivArith z₁ z₂) (cxMul realArith u₁ u₂) :=
  ⟨(h₁.1.mul h₂.1).add (h₁.2.mul h₂.2).neg, (h₁.1.mul h₂.2).add (h₁.2.mul h₂.1)⟩

theorem tightCx_sum {b w : ℚ} {zs : List (Cx Iv)} {us : List (Cx ℝ)} (h : List.Forall₂ (TightCx b w) zs us) :
    TightCx (us.length * b) (us.length * w) (cxSum ivArith zs) (cxSum realArith us) := by
  induction h with
  | nil => exact tightCx_zero (by simp) (by simp)
  | cons head _ ih =>
    refine (head.add ih).mono ?_ ?_ <;> rw [List.length_cons] <;> push_cast <;> linarith

/-- Lists made by index from related lists by related functions are related. -/
theorem forall₂_mapIdx {α β γ δ : Type} {R : α → β → Prop} {S : γ → δ → Prop} {xs : List α} {ys : List β}
    (h : List.Forall₂ R xs ys) : ∀ {f : ℕ → α → γ} {g : ℕ → β → δ}, (∀ n a b, R a b → S (f n a) (g n b)) →
      List.Forall₂ S (xs.mapIdx f) (ys.mapIdx g) := by
  induction h with
  | nil => intros; exact .nil
  | cons head _ ih =>
    intro f g hfg
    rw [List.mapIdx_cons, List.mapIdx_cons]
    exact .cons (hfg 0 _ _ head) (ih fun n => hfg (n + 1))

theorem forall₂_getD {α β : Type} {R : α → β → Prop} {xs : List α} {ys : List β} (h : List.Forall₂ R xs ys)
    {d : α} {e : β} (hd : R d e) (k : ℕ) : R (xs.getD k d) (ys.getD k e) := by
  induction h generalizing k with
  | nil => simpa using hd
  | cons head _ ih =>
    cases k with
    | zero => simpa using head
    | succ k => simpa using ih k

/-- Lists made from one list are related where their entries are. -/
theorem forall₂_map_same {α γ δ : Type} {S : γ → δ → Prop} {l : List α} {f : α → γ} {g : α → δ}
    (h : ∀ a ∈ l, S (f a) (g a)) : List.Forall₂ S (l.map f) (l.map g) := by
  rw [List.forall₂_map_left_iff, List.forall₂_map_right_iff, List.forall₂_same]
  exact h

theorem tone_tight (fs : ℕ) (sn : Snapshot) :
    List.Forall₂ (Tight 2 (1 / 10 ^ 38)) (tone ivArith fs sn) (tone realArith fs sn) := by
  refine forall₂_map_same fun n _ => ?_
  have sines := (tight_sinTurn (phaseTurns fs sn.params.osc1Freq n)).add
    (tight_sinTurn (phaseTurns fs sn.params.osc2Freq n))
  have mean := sines.scale (q := 1 / 2) (c := 1 / 2) (by norm_num [abs_of_nonneg])
  exact mean.mono (by norm_num) (by norm_num)

theorem forwardBin_tight {xs : List Iv} {ys : List ℝ} (h : List.Forall₂ (Tight 2 (1 / 10 ^ 38)) xs ys) (k : ℕ) :
    TightCx (8 * ys.length) (8 / 10 ^ 38 * ys.length) (forwardBin ivArith xs k) (forwardBin realArith ys k) := by
  unfold forwardBin
  rw [h.length_eq]
  have terms := forall₂_mapIdx (S := TightCx 8 (8 / 10 ^ 38)) h fun n a b hab =>
    (((tightCx_real hab).mul (tightCx_turn (-((k * n : ℕ) : ℚ) / ys.length))).mono (by norm_num) (by norm_num))
  have total := tightCx_sum terms
  rw [List.length_mapIdx] at total
  exact total.mono (by linarith) (by linarith)

theorem abs_bandGain_le {gains : List ℕ} {m : ℕ} (h : ∀ g ∈ gains, g ≤ m) (j : ℕ) :
    |bandGain gains j| ≤ m / 1000000 := by
  have gain : gains.getD j 0 ≤ m := by
    rw [List.getD_eq_getElem?_getD]
    rcases lt_or_ge j gains.length with hj | hj
    · simpa [hj] using h _ (List.getElem_mem hj)
    · simp [hj]
  unfold bandGain
  rw [abs_of_nonneg (by positivity)]
  gcongr

theorem gainedBins_tight {gains : List ℕ} (hg : ∀ g ∈ gains, g ≤ 1000000000) {xs : List Iv} {ys : List ℝ}
    (h : List.Forall₂ (Tight 2 (1 / 10 ^ 38)) xs ys) :
    List.Forall₂ (TightCx (8000 * ys.length) (8000 / 10 ^ 38 * ys.length)) (gainedBins ivArith gains xs)
      (gainedBins realArith gains ys) := by
  unfold gainedBins
  rw [h.length_eq]
  refine forall₂_map_same fun k _ => ?_
  refine ((forwardBin_tight h k).scale (abs_bandGain_le hg _)).mono ?_ ?_ <;> push_cast <;> linarith

theorem hermitian_tight {b w : ℚ} (hb : 0 ≤ b) (hw : 0 ≤ w) {zs : List (Cx Iv)} {us : List (Cx ℝ)}
    (h : List.Forall₂ (TightCx b w) zs us) (n : ℕ) :
    List.Forall₂ (TightCx b w) (hermitian ivArith n zs) (hermitian realArith n us) := by
  unfold hermitian
  rw [h.length_eq]
  refine forall₂_map_same fun k _ => ?_
  split
  · exact forall₂_getD h (tightCx_zero hb hw) k
  · exact (forall₂_getD h (tightCx_zero hb hw) (n - k)).conj

/-- A mean is no larger than the bound on its terms; of no terms it is 0. -/
theorem one_div_mul_mul_le (n : ℕ) {r : ℚ} (hr : 0 ≤ r) : 1 / (n : ℚ) * (n * r) ≤ r := by
  rcases eq_or_ne n 0 with rfl | hn
  · simpa using hr
  · have : (n : ℚ) ≠ 0 := by exact_mod_cast hn
    exact le_of_eq (by field_simp)

theorem inverseSample_tight {b w : ℚ} (hb : 0 ≤ b) (hw : 0 ≤ w) {zs : List (Cx Iv)} {us : List (Cx ℝ)}
    (h : List.Forall₂ (TightCx b w) zs us) (n : ℕ) :
    TightCx (4 * b) (2 * b / 10 ^ 38 + 4 * w) (inverseSample ivArith zs n) (inverseSample realArith us n) := by
  unfold inverseSample
  rw [h.length_eq]
  have terms := forall₂_mapIdx (S := TightCx (4 * b) (2 * b / 10 ^ 38 + 4 * w)) h fun k z u hzu =>
    ((hzu.mul (tightCx_turn (((k * n : ℕ) : ℚ) / us.length))).mono (by linarith) (by linarith))
  have mean := (tightCx_sum terms).scale (le_of_eq (abs_of_nonneg (by positivity : 0 ≤ 1 / (us.length : ℚ))))
  rw [List.length_mapIdx] at mean
  exact mean.mono (one_div_mul_mul_le _ (by positivity)) (one_div_mul_mul_le _ (by positivity))

/-- The transform EQ of a tight buffer, of at most ten seconds at 192 kHz and gains of at most 1000. -/
theorem spectralEq_enclosesWithin {gains : List ℕ} (hg : ∀ g ∈ gains, g ≤ 1000000000) {xs : List Iv} {ys : List ℝ}
    (h : List.Forall₂ (Tight 2 (1 / 10 ^ 38)) xs ys) (hlen : ys.length ≤ 1920000) :
    List.Forall₂ (EnclosesWithin (1 / 10 ^ 27)) (spectralEq ivArith gains xs) (spectralEq realArith gains ys) := by
  have hlen' : (ys.length : ℚ) ≤ 1920000 := by exact_mod_cast hlen
  unfold spectralEq
  rw [h.length_eq]
  refine forall₂_map_same fun n _ => ?_
  have spectrum := hermitian_tight (by positivity) (by positivity) (gainedBins_tight hg h) ys.length
  refine (inverseSample_tight (by positivity) (by positivity) spectrum n).1.1.mono ?_
  linarith

theorem map_scale_enclosesWithin {c v w q : ℚ} {xs : List Iv} {ys : List ℝ} (h : List.Forall₂ (EnclosesWithin v) xs ys)
    (hq : |q| ≤ c) (hw : c * v ≤ w) :
    List.Forall₂ (EnclosesWithin w) (xs.map (ivArith.scale q)) (ys.map (realArith.scale q)) := by
  rw [List.forall₂_map_left_iff, List.forall₂_map_right_iff]
  exact h.imp fun a x hax => (ivScale_enclosesWithin hq hax).mono hw

theorem eqStage_enclosesWithin {gains : List ℕ} (hg : ∀ g ∈ gains, g ≤ 1000000000) {xs : List Iv} {ys : List ℝ}
    (h : List.Forall₂ (Tight 2 (1 / 10 ^ 38)) xs ys) (hlen : ys.length ≤ 1920000) :
    List.Forall₂ (EnclosesWithin (1 / 10 ^ 27)) (eqStage ivArith gains xs) (eqStage realArith gains ys) := by
  have transformed := spectralEq_enclosesWithin hg h hlen
  match gains with
  | [] => exact transformed
  | g :: rest =>
    simp only [eqStage]
    split
    · have hg' : (g : ℚ) ≤ 1000000000 := by exact_mod_cast hg g (by simp)
      refine map_scale_enclosesWithin (c := 1000) (h.imp fun _ _ hax => hax.1) ?_ (by norm_num)
      rw [abs_of_nonneg (by positivity)]
      linarith
    · exact transformed

theorem distort_enclosesWithin {amount : ℕ} (ha : amount ≤ 1000000) {xs : List Iv} {ys : List ℝ}
    (h : List.Forall₂ (EnclosesWithin (1 / 10 ^ 27)) xs ys) :
    List.Forall₂ (EnclosesWithin (2 / 10 ^ 17)) (distort ivArith amount xs) (distort realArith amount ys) := by
  have ha' : (amount : ℚ) ≤ 1000000 := by exact_mod_cast ha
  have gain : |distortionGain amount| ≤ 11 := by
    unfold distortionGain
    rw [abs_of_nonneg (by positivity)]
    linarith
  unfold distort
  split
  · exact h.imp fun a x hax => hax.mono (by norm_num)
  · rw [List.forall₂_map_left_iff, List.forall₂_map_right_iff]
    refine h.imp fun a x hax => ?_
    have scaled := ivScale_enclosesWithin gain hax
    exact ⟨ivTanh_encloses scaled.1, (ivTanh_width scaled.order).trans (by linarith [scaled.2])⟩

/-- A value of the unit interval. -/
def InUnit (q : ℚ) : Prop := 0 ≤ q ∧ q ≤ 1

theorem InUnit.mul {p q : ℚ} (hp : InUnit p) (hq : InUnit q) : InUnit (p * q) :=
  ⟨mul_nonneg hp.1 hq.1, mul_le_one₀ hp.2 hq.1 hq.2⟩

theorem InUnit.abs_le_one {q : ℚ} (h : InUnit q) : |q| ≤ 1 := by
  rw [abs_of_nonneg h.1]; exact h.2

/-- A raw fraction of a million. -/
theorem inUnit_micro {n : ℕ} (h : n ≤ 1000000) : InUnit ((n : ℚ) / 1000000) := by
  have h' : (n : ℚ) ≤ 1000000 := by exact_mod_cast h
  exact ⟨by positivity, div_le_one_of_le₀ h' (by norm_num)⟩

/-- A point of the way from `a` to `b`. -/
theorem inUnit_between {a b t : ℚ} (ha : InUnit a) (hb : InUnit b) (ht : InUnit t) : InUnit (a + (b - a) * t) := by
  obtain ⟨a0, a1⟩ := ha
  obtain ⟨b0, b1⟩ := hb
  obtain ⟨t0, t1⟩ := ht
  constructor <;> nlinarith

theorem mem_linspace_inUnit {a b : ℚ} (ha : InUnit a) (hb : InUnit b) (n : ℕ) : ∀ e ∈ linspace a b n, InUnit e := by
  unfold linspace
  split
  · simpa using ha
  · intro e he
    obtain ⟨i, hi, rfl⟩ : ∃ i : ℕ, i < n ∧ a + (b - a) * (i : ℚ) / ((n : ℚ) - 1) = e := by simpa using he
    have last : (i : ℚ) + 1 ≤ n := by exact_mod_cast hi
    have start : (0 : ℚ) ≤ i := i.cast_nonneg
    rw [mul_div_assoc]
    exact inUnit_between ha hb ⟨div_nonneg start (by linarith), div_le_one_of_le₀ (by linarith) (by linarith)⟩

theorem mem_squares_inUnit {xs : List ℚ} (h : ∀ e ∈ xs, InUnit e) : ∀ e ∈ squares xs, InUnit e := by
  intro e he
  obtain ⟨x, hx, rfl⟩ := List.mem_map.mp he
  exact (h x hx).mul (h x hx)

theorem mem_constant_inUnit {c : ℚ} (h : InUnit c) (n : ℕ) : ∀ e ∈ constant c n, InUnit e := by
  intro e he
  rwa [List.eq_of_mem_replicate he]

theorem mem_append_inUnit {xs ys : List ℚ} (hx : ∀ e ∈ xs, InUnit e) (hy : ∀ e ∈ ys, InUnit e) :
    ∀ e ∈ xs ++ ys, InUnit e := by
  intro e he
  exact (List.mem_append.mp he).elim (hx e) (hy e)

theorem mem_fit_inUnit {xs : List ℚ} (h : ∀ e ∈ xs, InUnit e) (n : ℕ) : ∀ e ∈ fit xs n, InUnit e :=
  mem_append_inUnit (fun e he => h e (List.mem_of_mem_take he)) (mem_constant_inUnit ⟨le_refl 0, zero_le_one⟩ _)

/-- Both variants of the envelope stay in the unit interval (44_envelope.md R175, R178). -/
theorem mem_envelope_inUnit {sn : Snapshot} (hs : sn.params.sustain ≤ 1000000) (fs n : ℕ) :
    ∀ e ∈ envelope fs n sn, InUnit e := by
  have zero : InUnit 0 := ⟨le_refl 0, zero_le_one⟩
  have one : InUnit 1 := ⟨zero_le_one, le_refl 1⟩
  have sustain := inUnit_micro hs
  unfold envelope
  simp only
  split
  · exact mem_fit_inUnit (mem_append_inUnit (mem_append_inUnit (mem_append_inUnit
      (mem_squares_inUnit (mem_linspace_inUnit zero one _)) (mem_squares_inUnit (mem_linspace_inUnit one sustain _)))
      (mem_constant_inUnit (sustain.mul sustain) _)) (mem_squares_inUnit (mem_linspace_inUnit sustain zero _))) n
  · exact mem_fit_inUnit (mem_append_inUnit (mem_append_inUnit (mem_append_inUnit
      (mem_linspace_inUnit zero one _) (mem_linspace_inUnit one sustain _))
      (mem_constant_inUnit sustain _)) (mem_linspace_inUnit sustain zero _)) n

theorem applyEnvelope_enclosesWithin {w : ℚ} {xs : List Iv} {ys : List ℝ} (h : List.Forall₂ (EnclosesWithin w) xs ys) :
    ∀ {env : List ℚ}, (∀ e ∈ env, InUnit e) →
      List.Forall₂ (EnclosesWithin w) (applyEnvelope ivArith env xs) (applyEnvelope realArith env ys) := by
  unfold applyEnvelope
  induction h with
  | nil => intro env _; simp
  | cons head _ ih =>
    intro env he
    cases env with
    | nil => simp
    | cons e rest =>
      obtain ⟨first, others⟩ := List.forall_mem_cons.mp he
      have scaled := ivScale_enclosesWithin first.abs_le_one head
      rw [one_mul] at scaled
      exact .cons scaled (ih others)

theorem mixLevel_enclosesWithin {w : ℚ} {sn : Snapshot} (hl : InUnit (levelOf sn.params)) {xs : List Iv} {ys : List ℝ}
    (h : List.Forall₂ (EnclosesWithin w) xs ys) :
    List.Forall₂ (EnclosesWithin w) (mixLevel ivArith sn xs) (mixLevel realArith sn ys) := by
  unfold mixLevel
  split
  · exact map_scale_enclosesWithin h hl.abs_le_one (one_mul w).le
  · exact h

/-- The fields of a legal parameter record that bound a render (10_state.md R26). -/
theorem LegalParams.bounds {c : Config} {r : VoiceParams} (h : LegalParams c r) :
    r.volume ≤ 1000000 ∧ r.gain ≤ 1000000 ∧ r.sustain ≤ 1000000 ∧ r.distortion ≤ 1000000 ∧ r.leftGain ≤ 1000000 ∧
      r.rightGain ≤ 1000000 :=
  ⟨(h.1 .volume (by decide)).2, (h.1 .gain (by decide)).2, (h.1 .sustain (by decide)).2,
    (h.1 .distortion (by decide)).2, (h.1 .leftGain (by decide)).2, (h.1 .rightGain (by decide)).2⟩

theorem levelOf_inUnit {p : VoiceParams} (hv : p.volume ≤ 1000000) (hg : p.gain ≤ 1000000) : InUnit (levelOf p) :=
  (inUnit_micro hv).mul (inUnit_micro hg)

/-- The step's signal path encloses the exact one, none of its intervals wider than 2·10^-17. -/
theorem signalPath_enclosesWithin {c : Config} {sn : Snapshot} (hc : c.Legal) (hsn : LegalSnapshot c sn) :
    List.Forall₂ (EnclosesWithin (2 / 10 ^ 17)) (signalPath ivArith (eqStage ivArith) c.sampleRate sn)
      (referencePath c.sampleRate sn) := by
  obtain ⟨-, ⟨-, rate⟩, ⟨bands, -⟩, -, ⟨-, gainMax⟩, -⟩ := hc
  obtain ⟨params, ⟨-, duration⟩, -⟩ := hsn
  obtain ⟨hv, hg, hs, hd, -⟩ := params.bounds
  obtain ⟨-, count, gains⟩ := params
  have nonempty : sn.params.eqGain ≠ [] := by
    intro h
    rw [h] at count
    simp at count
    omega
  have short : (tone realArith c.sampleRate sn).length ≤ 1920000 := by
    rw [tone, List.length_map, List.length_range]
    calc sn.dur * c.sampleRate / 1000000 ≤ 10000000 * 192000 / 1000000 :=
          Nat.div_le_div_right (Nat.mul_le_mul duration rate)
      _ = 1920000 := by norm_num
  have equalised := eqStage_enclosesWithin (fun g hg => (gains g hg).trans gainMax) (tone_tight c.sampleRate sn) short
  rw [eqStage_realArith nonempty] at equalised
  exact mixLevel_enclosesWithin (levelOf_inUnit hv hg) (applyEnvelope_enclosesWithin
    (distort_enclosesWithin hd equalised) (mem_envelope_inUnit hs _ _))

end Sys2Proof.Machine
end

section
/-! PROOFS. The quantizer and the channels on an enclosed sample: within one of the exact render's (45_mixer_quantizer.md
R194, R197; log entries 10, 11 and 25). -/

namespace Sys2Proof.Machine
open Sys2Proof

theorem truncReal_add_one_le (x : ℝ) : truncReal (x + 1) ≤ truncReal x + 1 := by
  unfold truncReal
  split <;> split
  · exact (Int.floor_add_one x).le
  · have below : ⌊x + 1⌋ < 1 := Int.floor_lt.mpr (by push_cast; linarith)
    have above : (-1 : ℝ) ≤ (⌈x⌉ : ℤ) := by linarith [Int.le_ceil x]
    have above' : (-1 : ℤ) ≤ ⌈x⌉ := by exact_mod_cast above
    omega
  · linarith
  · exact (Int.ceil_add_one x).le

/-- Values no further apart than 1 truncate to integers no further apart than 1. -/
theorem abs_truncReal_sub_le {x y : ℝ} (h : |x - y| ≤ 1) : |truncReal x - truncReal y| ≤ 1 := by
  obtain ⟨h1, h2⟩ := abs_le.mp h
  have up := (truncReal_mono (by linarith : x ≤ y + 1)).trans (truncReal_add_one_le y)
  have down := (truncReal_mono (by linarith : y ≤ x + 1)).trans (truncReal_add_one_le x)
  exact abs_le.mpr ⟨by linarith, by linarith⟩

/-- Clipping brings integers no further apart. -/
theorem abs_clampPcm_sub_le {x y : ℤ} (h : |x - y| ≤ 1) : |clampPcm x - clampPcm y| ≤ 1 := by
  obtain ⟨h1, h2⟩ := abs_le.mp h
  refine abs_le.mpr ?_
  unfold clampPcm
  split_ifs <;> omega

theorem truncReal_intCast (n : ℤ) : truncReal (n : ℝ) = n := by
  unfold truncReal; split <;> simp

/-- A value at or above the greatest sample is clipped to it. -/
theorem clampPcm_truncReal_of_ge {y : ℝ} (h : 32767 ≤ y) : clampPcm (truncReal y) = 32767 := by
  have large := truncReal_mono (x := ((32767 : ℤ) : ℝ)) (by exact_mod_cast h)
  rw [truncReal_intCast] at large
  exact le_antisymm (clampPcm_mem _).2 (clampPcm_mono large)

/-- A value at or below the least sample is clipped to it. -/
theorem clampPcm_truncReal_of_le {y : ℝ} (h : y ≤ -32768) : clampPcm (truncReal y) = -32768 := by
  have small := truncReal_mono (y := ((-32768 : ℤ) : ℝ)) (by push_cast; exact h)
  rw [truncReal_intCast] at small
  exact le_antisymm (clampPcm_mono small) (clampPcm_mem _).1

/-- The exact value's truncation lies between the two bounds of an interval that contains it. -/
theorem truncReal_between {tol : ℚ} (ht : 0 ≤ tol) {a : Iv} {x : ℝ} (h : Encloses a x) :
    truncLo tol a ≤ truncReal x ∧ truncReal x ≤ truncHi tol a := by
  have slackLo : 0 ≤ tol * ratAbs a.lo := mul_nonneg ht (by rw [ratAbs_eq]; exact abs_nonneg _)
  have slackHi : 0 ≤ tol * ratAbs a.hi := mul_nonneg ht (by rw [ratAbs_eq]; exact abs_nonneg _)
  have lo : ((a.lo - tol * ratAbs a.lo : ℚ) : ℝ) ≤ (a.lo : ℝ) := Rat.cast_le.mpr (by linarith)
  have hi : (a.hi : ℝ) ≤ ((a.hi + tol * ratAbs a.hi : ℚ) : ℝ) := Rat.cast_le.mpr (by linarith)
  unfold truncLo truncHi
  rw [truncRat_eq_truncReal, truncRat_eq_truncReal]
  exact ⟨truncReal_mono (lo.trans h.1), truncReal_mono (h.2.trans hi)⟩

/-- The middle of a narrow interval truncates to the exact value's integer or one beside it. -/
theorem abs_truncNear_sub_le {w : ℚ} (hw : w ≤ 1) {a : Iv} {x : ℝ} (h : EnclosesWithin w a x) :
    |truncNear a - truncReal x| ≤ 1 := by
  obtain ⟨lo, hi⟩ := h.endpoints
  have hw' : (w : ℝ) ≤ 1 := by exact_mod_cast hw
  unfold truncNear
  rw [truncRat_eq_truncReal]
  refine abs_truncReal_sub_le (abs_le.mpr ?_)
  push_cast
  constructor <;> linarith [h.1.1, h.1.2]

/-- What R197 admits for an exact product clips to the exact sample or to one beside it: where TOL reaches further than
an integer, both are clipped alike. -/
theorem abs_clampPcm_admitted_sub_le {tol : ℚ} (ht : tol ≤ 1 / 100000) {x : ℝ} {z : ℤ} (h : Admitted tol x z) :
    |clampPcm z - referenceQuantize x| ≤ 1 := by
  obtain ⟨y, near, rfl⟩ := h
  have ht' : (tol : ℝ) ≤ 1 / 100000 := by
    have := (Rat.cast_le (K := ℝ)).mpr ht
    push_cast at this
    exact this
  have near' : |y - x| ≤ 1 / 100000 * |x| := near.trans (mul_le_mul_of_nonneg_right ht' (abs_nonneg x))
  unfold referenceQuantize
  rcases le_or_gt |x| 100000 with small | large
  · exact abs_clampPcm_sub_le (abs_truncReal_sub_le (by linarith))
  · obtain ⟨n1, n2⟩ := abs_le.mp near'
    rcases lt_abs.mp large with above | below
    · rw [abs_of_pos (by linarith)] at n1
      rw [clampPcm_truncReal_of_ge (by linarith : 32767 ≤ y), clampPcm_truncReal_of_ge (by linarith : 32767 ≤ x)]
      simp
    · rw [abs_of_neg (by linarith)] at n2
      rw [clampPcm_truncReal_of_le (by linarith : y ≤ -32768), clampPcm_truncReal_of_le (by linarith : x ≤ -32768)]
      simp

/-- The quantizer's sample is the exact one or one beside it (45_mixer_quantizer.md R197). -/
theorem abs_quantize_sub_le {c : Config} (hc : c.Legal) (sn : Snapshot) (n : ℕ) {a : Iv}
    (h : EnclosesWithin (1 / 10 ^ 15) a ((referencePath c.sampleRate sn).getD n 0)) :
    |quantize c sn n a - referenceQuantize (referenceProduct c.sampleRate sn n)| ≤ 1 := by
  have scaled := ivScale_enclosesWithin (q := 32767) (c := 32767) (by norm_num [abs_of_nonneg]) h
  have product : ((32767 : ℚ) : ℝ) * (referencePath c.sampleRate sn).getD n 0 = referenceProduct c.sampleRate sn n := by
    unfold referenceProduct; push_cast; ring
  rw [product] at scaled
  unfold quantize
  rcases truncateProduct_cases (tolerance c.numerics) (siteOf c sn .quantized n)
    (Admitted (tolerance c.numerics) (referenceProduct c.sampleRate sn n)) (ivScale 32767 a) with
    ⟨one, eq⟩ | ⟨-, admitted | eq⟩
  · obtain ⟨lo, hi⟩ := truncReal_between (tolerance_nonneg c.numerics) scaled.1
    rw [eq, referenceQuantize, le_antisymm lo (hi.trans one)]
    simp
  · exact abs_clampPcm_admitted_sub_le (tolerance_range hc).2 admitted
  · rw [eq]
    exact abs_clampPcm_sub_le (abs_truncNear_sub_le (by norm_num) scaled)

/-- A channel's exact products of neighbouring samples truncate to neighbours or to one integer. -/
theorem abs_truncRat_channelProduct_sub_le {g : ℕ} (hg : g ≤ 1000000) {q r : ℤ} (h : |q - r| ≤ 1) :
    |truncRat (channelProduct g q) - truncRat (channelProduct g r)| ≤ 1 := by
  rw [truncRat_eq_truncReal, truncRat_eq_truncReal]
  apply abs_truncReal_sub_le
  have hg' : (g : ℝ) / 1000000 ≤ 1 := div_le_one_of_le₀ (by exact_mod_cast hg) (by norm_num)
  have h' : |(q : ℝ) - r| ≤ 1 := by exact_mod_cast h
  calc |((channelProduct g q : ℚ) : ℝ) - ((channelProduct g r : ℚ) : ℝ)| = |(q : ℝ) - r| * ((g : ℝ) / 1000000) := by
        rw [← abs_of_nonneg (by positivity : (0 : ℝ) ≤ (g : ℝ) / 1000000), ← abs_mul]
        unfold channelProduct
        push_cast
        congr 1; ring
    _ ≤ 1 := mul_le_one₀ h' (by positivity) hg'

/-- A channel's sample is the exact one or one beside it (45_mixer_quantizer.md R197). -/
theorem abs_channelOf_sub_le (c : Config) (sn : Snapshot) (n : ℕ) (p : Product) {g : ℕ} (hg : g ≤ 1000000) {q : ℤ}
    (h : |q - referenceQuantize (referenceProduct c.sampleRate sn n)| ≤ 1) :
    |channelOf c sn n p g q -
      truncRat (channelProduct g (referenceQuantize (referenceProduct c.sampleRate sn n)))| ≤ 1 := by
  have neighbour := abs_truncRat_channelProduct_sub_le hg h
  unfold channelOf channel
  rcases truncateProduct_cases (tolerance c.numerics) (siteOf c sn p n)
    (ChannelAdmitted (tolerance c.numerics) (referenceProduct c.sampleRate sn n) g q)
    (ivExact (channelProduct g q)) with ⟨one, eq⟩ | ⟨-, admitted | eq⟩
  · obtain ⟨lo, hi⟩ := truncReal_between (tolerance_nonneg c.numerics) (ivExact_encloses (channelProduct g q))
    rw [eq, le_antisymm lo (hi.trans one), ← truncRat_eq_truncReal]
    exact neighbour
  · exact admitted.2
  · have middle : truncNear (ivExact (channelProduct g q)) = truncRat (channelProduct g q) := by
      simp [truncNear, ivExact]
    rw [eq, middle]
    exact neighbour

/-- Every delivered pair is the exact pair or one beside it in each channel (45_mixer_quantizer.md R194, R197). -/
theorem renderPairs_near {c : Config} {sn : Snapshot} (hc : c.Legal) (hl : sn.params.leftGain ≤ 1000000)
    (hr : sn.params.rightGain ≤ 1000000)
    (h : List.Forall₂ (EnclosesWithin (1 / 10 ^ 15)) (signalPath ivArith (eqStage ivArith) c.sampleRate sn)
      (referencePath c.sampleRate sn)) (v : ℕ) :
    List.Forall₂ (fun p q => |p.1 - q.1| ≤ 1 ∧ |p.2 - q.2| ≤ 1) (renderPairs c sn)
      (referenceRender c.sampleRate v sn).pairs := by
  have samples := List.forall₂_iff_get.mp h
  refine List.forall₂_iff_get.mpr ⟨by simpa [renderPairs, referenceRender] using samples.1, fun n h1 h2 => ?_⟩
  have hn : n < (referencePath c.sampleRate sn).length := by simpa [referenceRender] using h2
  have hn' : n < (signalPath ivArith (eqStage ivArith) c.sampleRate sn).length := by simpa [renderPairs] using h1
  have sample := samples.2 n hn' hn
  have exact_eq : (referencePath c.sampleRate sn).get ⟨n, hn⟩ = (referencePath c.sampleRate sn).getD n 0 := by
    simp [hn]
  rw [exact_eq] at sample
  have q := abs_quantize_sub_le hc sn n sample
  have product : (referencePath c.sampleRate sn)[n] * 32767 = referenceProduct c.sampleRate sn n := by
    simp [referenceProduct, hn]
  simp only [renderPairs, referenceRender, List.get_eq_getElem, List.getElem_mapIdx, List.getElem_map, product]
  exact ⟨abs_channelOf_sub_le c sn n .left hl q, abs_channelOf_sub_le c sn n .right hr q⟩

/-- The delivered level is within TOL of the exact one (00_scope.md R12; log entry 25). -/
theorem abs_deliveredLevel_sub_le (c : Config) {sn : Snapshot} (hl : InUnit (levelOf sn.params)) (v : ℕ) :
    |deliveredLevel c sn - (referenceRender c.sampleRate v sn).level| ≤
      tolerance c.numerics * (referenceRender c.sampleRate v sn).level := by
  have tol := tolerance_nonneg c.numerics
  unfold deliveredLevel referenceRender
  split
  · simpa using tol
  · rcases roundLevel_cases (tolerance c.numerics) (siteOf c sn .level 0) (levelOf sn.params) with admitted | eq
    · unfold LevelAdmitted at admitted
      rwa [abs_of_nonneg hl.1] at admitted
    · rw [eq, sub_self, abs_zero]
      exact mul_nonneg tol hl.1

/-- Settles O58: the stages keep their enclosures narrow, and the quantizer and the channels turn a narrow enclosure
into the exact integer or one beside it. -/
theorem renderEnclosesTheExactRender : Obligations.RenderEnclosesTheExactRender := by
  intro c sn hc hsn
  have narrow : List.Forall₂ (EnclosesWithin (1 / 10 ^ 15)) (signalPath ivArith (eqStage ivArith) c.sampleRate sn)
      (referencePath c.sampleRate sn) :=
    (signalPath_enclosesWithin hc hsn).imp fun _ _ h => h.mono (by norm_num)
  obtain ⟨hv, hg, -, -, hl, hr⟩ := hsn.1.bounds
  exact ⟨narrow, fun v => ⟨rfl, rfl, abs_deliveredLevel_sub_le c (levelOf_inUnit hv hg) v,
    renderPairs_near hc hl hr narrow v⟩⟩

end Sys2Proof.Machine
end

section
/-! PROOFS. What one command and one turn can do, said once: the state each leaves, case by case (20_memory.md R68), and
from it which turn writes which register. -/

namespace Sys2Proof.Machine
open Sys2Proof

/-- The command names a voice, a parameter, a step or a status register that does not exist (20_memory.md R61). -/
def MissesAddress (s : State) : Instr → Prop
  | .setp v p _ | .getp v p => namedParam s v p = none
  | .sets v k _ | .gets v k => cellExists s v k = false
  | .getstat k => readStatus s k = none
  | _ => False

/-- What the command `i` leaves. Of a GET's answer, and of a missed address in LAST_ERR, it says only that one is there. -/
inductive CommandEffect (s : State) : Instr → State → Prop
  | idle {i : Instr} (h : i = .nop ∨ i = .start ∧ s.running = true ∨ i = .stop ∧ s.running = false) : CommandEffect s i s
  | missed {i : Instr} (h : MissesAddress s i) (v k : Byte) : CommandEffect s i (rejectAddress i.opcode v k s)
  | answered {i : Instr} (h : isGetOp i.opcode = true) (r : Word) : CommandEffect s i (respond r s)
  | setp {v p : Byte} {val : Word} (f : Param) (h : namedParam s v p = some f) :
      CommandEffect s (.setp v p val) (storeParam v p f (rawOf val) s)
  | sets {v k : Byte} {b : Bool} (h : cellExists s v k = true) :
      CommandEffect s (.sets v k b) (writeCell v.toNat k.toNat b s)
  | sett {val : Word} : CommandEffect s (.sett val)
      { reportClamp (rawOf val) tempoLo tempoHi 0x03 0x00 noVoice s with tempo := clampRaw (rawOf val) tempoLo tempoHi }
  | setd {val : Word} : CommandEffect s (.setd val)
      { reportClamp (rawOf val) durationLo durationHi 0x06 0x00 noVoice s with
        duration := clampRaw (rawOf val) durationLo durationHi }
  | setcfg {c : Word} (h : configReservedZero c = true) : CommandEffect s (.setcfg c) { s with config := c }
  | setcfgReserved {c : Word} (h : configReservedZero c = false) :
      CommandEffect s (.setcfg c) (raiseErr .badCmd noVoice (commandDetail 0x07 0x00) s)
  | start (h : s.running = false) (ready : s.sinkOk = true) :
      CommandEffect s .start { s with running := true, nextInterval := 0 }
  | startUnavailable (h : s.running = false) (unready : s.sinkOk = false) :
      CommandEffect s .start (raiseErr .devUnavail noVoice (commandDetail 0x04 0x00) s)
  | stop (h : s.running = true) : CommandEffect s .stop { s with running := false, epoch := s.epoch + 1 }
  | clrdiag : CommandEffect s .clrdiag (clearDiagnostics s)

/-- Every command has one of the effects. -/
theorem exec_effect (i : Instr) (s : State) : ∃ t, exec i s = .next t ∧ CommandEffect s i t := by
  cases i with
  | nop => exact ⟨_, rfl, .idle (.inl rfl)⟩
  | setp v p val =>
    simp only [exec, execSetp]
    split
    · next h => exact ⟨_, rfl, .missed (i := .setp v p val) h v p⟩
    · next f h => exact ⟨_, rfl, .setp f h⟩
  | sets v k b =>
    simp only [exec, execSets]
    split
    · next h => exact ⟨_, rfl, .sets h⟩
    · next h => exact ⟨_, rfl, .missed (i := .sets v k b) (eq_false_of_ne_true h) v k⟩
  | sett val => exact ⟨_, rfl, .sett⟩
  | start =>
    simp only [exec, execStart]
    split
    · next h => exact ⟨_, rfl, .idle (.inr (.inl ⟨rfl, h⟩))⟩
    · next h =>
      split
      · next ready => exact ⟨_, rfl, .start (eq_false_of_ne_true h) ready⟩
      · next unready => exact ⟨_, rfl, .startUnavailable (eq_false_of_ne_true h) (eq_false_of_ne_true unready)⟩
  | stop =>
    simp only [exec, execStop]
    split
    · next h => exact ⟨_, rfl, .stop h⟩
    · next h => exact ⟨_, rfl, .idle (.inr (.inr ⟨rfl, eq_false_of_ne_true h⟩))⟩
  | setd val => exact ⟨_, rfl, .setd⟩
  | setcfg c =>
    simp only [exec, execSetcfg]
    split
    · next h => exact ⟨_, rfl, .setcfg h⟩
    · next h => exact ⟨_, rfl, .setcfgReserved (eq_false_of_ne_true h)⟩
  | getp v p =>
    simp only [exec, execGetp]
    split
    · next h => exact ⟨_, rfl, .missed (i := .getp v p) h v p⟩
    · exact ⟨_, rfl, .answered rfl _⟩
  | gets v k =>
    simp only [exec, execGets]
    split
    · exact ⟨_, rfl, .answered rfl _⟩
    · next h => exact ⟨_, rfl, .missed (i := .gets v k) (eq_false_of_ne_true h) v k⟩
  | getstat k =>
    simp only [exec, execGetstat]
    split
    · next h => exact ⟨_, rfl, .missed (i := .getstat k) h 0x00 k⟩
    · exact ⟨_, rfl, .answered rfl _⟩
  | clrdiag => exact ⟨_, rfl, .clrdiag⟩

/-- What a turn leaves. Which word the eighth byte completes is not part of it. -/
inductive TurnEffect (s : State) : Turn → State → Prop
  | noWord (h : s.commandIn = []) : TurnEffect s .command s
  | rejected {w : CommandWord} {rest : List CommandWord} {e : DecodeError}
      (hp : s.commandIn = w :: rest) (hd : decode w = .error e) :
      TurnEffect s .command (rejectWord w { s with commandIn := rest })
  | ran {w : CommandWord} {rest : List CommandWord} {i : Instr} {t : State} (hp : s.commandIn = w :: rest)
      (hd : decode w = .ok i) (h : CommandEffect { s with commandIn := rest } i t) : TurnEffect s .command t
  | stopped (h : s.running = false) : TurnEffect s .tick s
  | ticked (h : s.running = true) : TurnEffect s .tick (tick s)
  | free {v : Nat} (h : (s.voice v).snap = none) : TurnEffect s (.complete v) s
  | failed {v : Nat} {sn : Snapshot} (h : (s.voice v).snap = some sn) (hf : renderFailed s = true) :
      TurnEffect s (.complete v) { failRender v sn s with draws := s.draws + 1 }
  | discarded {v : Nat} {sn : Snapshot} (h : (s.voice v).snap = some sn) (hf : renderFailed s = false)
      (he : sn.epoch ≠ s.epoch) :
      TurnEffect s (.complete v) { writeSnap v none s with draws := s.draws + 1 }
  | delivered {v : Nat} {sn : Snapshot} (h : (s.voice v).snap = some sn) (hf : renderFailed s = false)
      (he : sn.epoch = s.epoch) :
      TurnEffect s (.complete v) { deliver (render s.cfg v sn) (writeSnap v none s) with draws := s.draws + 1 }
  | wordIn (w : CommandWord) : TurnEffect s (.wordIn w) (receiveWord w s)
  | byteKept (b : Byte) (h : s.linkBytes.length ≠ 7) :
      TurnEffect s (.byteIn b) { s with linkBytes := s.linkBytes ++ [b] }
  | byteCompletes (b : Byte) (w : CommandWord) : TurnEffect s (.byteIn b) (receiveWord w { s with linkBytes := [] })
  | responseOut : TurnEffect s .responseOut (takeResponse s)
  | recordOut : TurnEffect s .recordOut (takeRecord s)
  | sinkReady (r : Bool) : TurnEffect s (.sinkReady r) (driveSinkReady r s)
  | reset : TurnEffect s .reset (resetStep s)

theorem commandStep_effect {s t : State} (h : commandStep s = .next t) : TurnEffect s .command t := by
  unfold commandStep takeWord at h
  cases hp : s.commandIn with
  | nil => simp only [hp] at h; cases h; exact .noWord hp
  | cons w rest =>
    simp only [hp, executeWord] at h
    cases hd : decode w with
    | error e => simp only [hd] at h; cases h; exact .rejected hp hd
    | ok i =>
      obtain ⟨t', run, effect⟩ := exec_effect i { s with commandIn := rest }
      simp only [hd, run] at h
      cases h
      exact .ran hp hd effect

theorem renderStep_effect (v : Nat) (s : State) : TurnEffect s (.complete v) (renderStep v s) := by
  unfold renderStep
  split
  · exact .free ‹_›
  · split
    · exact .failed ‹_› ‹_›
    · unfold finishRender
      split
      · exact .delivered ‹_› (eq_false_of_ne_true ‹_›) ‹_›
      · exact .discarded ‹_› (eq_false_of_ne_true ‹_›) ‹_›

theorem receiveByte_effect (b : Byte) (s : State) : TurnEffect s (.byteIn b) (receiveByte b s) := by
  unfold receiveByte
  split
  · exact .byteCompletes b _
  · refine .byteKept b fun seven => ?_
    rename_i notSeven
    match hl : s.linkBytes, seven with
    | [b0, b1, b2, b3, b4, b5, b6], _ => exact notSeven _ _ _ _ _ _ _ hl

/-- Every turn has one of the effects. -/
theorem runTurn_effect {s t : State} {a : Turn} (h : runTurn a s = .next t) : TurnEffect s a t := by
  cases a with
  | command => exact commandStep_effect h
  | tick =>
    cases h
    unfold clockStep
    split
    · exact .ticked ‹_›
    · exact .stopped (eq_false_of_ne_true ‹_›)
  | complete v => cases h; exact renderStep_effect v s
  | wordIn w => cases h; exact .wordIn w
  | byteIn b => cases h; exact receiveByte_effect b s
  | responseOut => cases h; exact .responseOut
  | recordOut => cases h; exact .recordOut
  | sinkReady r => cases h; exact .sinkReady r
  | reset => cases h; exact .reset

/-- The state a turn acts on differs from the step's in the model's own two fields alone. -/
theorem nextTurn_eq {s u : State} {a : Turn} (h : nextTurn s = some (a, u)) :
    ∃ later n, u = { s with schedule := later, draws := n } := ⟨_, _, nextTurn_frame h⟩

@[simp] theorem tick_cfg (s : State) : (tick s).cfg = s.cfg := by rw [tick_frame]
@[simp] theorem tick_running (s : State) : (tick s).running = s.running := by rw [tick_frame]
@[simp] theorem tick_tempo (s : State) : (tick s).tempo = s.tempo := by rw [tick_frame]
@[simp] theorem tick_gstep (s : State) : (tick s).gstep = s.gstep + 1 := rfl
@[simp] theorem tick_duration (s : State) : (tick s).duration = s.duration := by rw [tick_frame]
@[simp] theorem tick_sinkOk (s : State) : (tick s).sinkOk = s.sinkOk := by rw [tick_frame]
@[simp] theorem tick_config (s : State) : (tick s).config = s.config := by rw [tick_frame]
@[simp] theorem tick_epoch (s : State) : (tick s).epoch = s.epoch := by rw [tick_frame]
@[simp] theorem tick_faultCnt (s : State) : (tick s).faultCnt = s.faultCnt := by rw [tick_frame]
@[simp] theorem tick_nextInterval (s : State) : (tick s).nextInterval = tickInterval s.tempo := rfl
@[simp] theorem tick_linkBytes (s : State) : (tick s).linkBytes = s.linkBytes := by rw [tick_frame]
@[simp] theorem tick_responses (s : State) : (tick s).responses = s.responses := by rw [tick_frame]
@[simp] theorem tick_delivered (s : State) : (tick s).delivered = s.delivered := by rw [tick_frame]

/-- A tick records an overrun in ERR or leaves it (60_exceptions.md R247). -/
theorem tick_err_cases (s : State) : (tick s).err = s.err ∨ (tick s).err = setErrFlag .overrun s.err := by
  have errors := foldl_tickVoice_errors s.gstep _ s (List.nodup_range (n := s.cfg.numVoices))
  split at errors
  · exact .inl (congrArg Prod.fst errors)
  · exact .inr (congrArg Prod.fst errors)

/-- The later word of ERR is the earlier one, or that with one more flag set. -/
def FlagAdded (before after : Word) : Prop := after = before ∨ ∃ c, after = setErrFlag c before

@[simp] theorem flagAdded_refl (err : Word) : FlagAdded err err := .inl rfl

@[simp] theorem flagAdded_setErrFlag (c : ErrCode) (err : Word) : FlagAdded err (setErrFlag c err) := .inr ⟨c, rfl⟩

@[simp] theorem flagAdded_ite (p : Prop) [Decidable p] (c : ErrCode) (err : Word) :
    FlagAdded err (if p then setErrFlag c err else err) := by
  split <;> simp

/-- A flag that was set is still set (10_state.md R41). -/
theorem FlagAdded.keeps {before after : Word} (h : FlagAdded before after) {k : Nat} (hk : before.getLsbD k = true) :
    after.getLsbD k = true := by
  rcases h with rfl | ⟨c, rfl⟩
  · exact hk
  · exact setErrFlag_keeps c before hk

/-- The reserved bits of ERR stay zero (10_state.md R41). -/
theorem FlagAdded.reserved {before after : Word} (h : FlagAdded before after) (hb : before.extractLsb' 6 26 = 0) :
    after.extractLsb' 6 26 = 0 := by
  rcases h with rfl | ⟨c, rfl⟩
  · exact hb
  · exact setErrFlag_reserved c hb

/-- A tick records an overrun in ERR or leaves it (60_exceptions.md R247). -/
@[simp] theorem tick_flagAdded (s : State) : FlagAdded s.err (tick s).err := by
  have errors := foldl_tickVoice_errors s.gstep _ s (List.nodup_range (n := s.cfg.numVoices))
  split at errors
  · exact .inl (congrArg Prod.fst errors)
  · exact .inr ⟨.overrun, congrArg Prod.fst errors⟩

/-- Which turn may have written which register, and with what. -/
structure RegisterWrites (a : Turn) (s t : State) : Prop where
  cfg : t.cfg = s.cfg
  running : t.running = s.running ∨ RunsCommand a s .start ∨ RunsCommand a s .stop
  tempo : t.tempo = s.tempo ∨ ∃ x, RunsCommand a s (.sett x) ∧ t.tempo = clampRaw (rawOf x) tempoLo tempoHi
  gstep : t.gstep = if a = .tick ∧ s.running = true then s.gstep + 1 else s.gstep
  duration : t.duration = s.duration ∨
    ∃ x, RunsCommand a s (.setd x) ∧ t.duration = clampRaw (rawOf x) durationLo durationHi
  sinkOk : t.sinkOk = s.sinkOk
  config : t.config = s.config ∨ ∃ c, RunsCommand a s (.setcfg c) ∧ configReservedZero c = true ∧ t.config = c
  epoch : t.epoch = s.epoch ∨ RunsCommand a s .stop
  err : FlagAdded s.err t.err ∨ RunsCommand a s .clrdiag ∧ t.err = 0
  faultCnt : t.faultCnt = s.faultCnt ∨ RunsCommand a s .clrdiag ∨ ∃ v, a = .complete v
  trigCnt : t.trigCnt = s.trigCnt ∨ RunsCommand a s .clrdiag ∨ a = .tick
  nextInterval : t.nextInterval = s.nextInterval ∨ t.nextInterval = 0 ∨ t.nextInterval = tickInterval s.tempo

theorem CommandEffect.registerWrites {s t : State} {rest : List CommandWord} {i : Instr}
    (h : CommandEffect { s with commandIn := rest } i t) (run : RunsCommand .command s i) :
    RegisterWrites .command s t := by
  cases h <;> constructor
  case sett.tempo => exact .inr ⟨_, run, rfl⟩
  case setd.duration => exact .inr ⟨_, run, rfl⟩
  case setcfg.config reserved => exact .inr ⟨_, run, reserved, rfl⟩
  case start.running => exact .inr (.inl run)
  case stop.running => exact .inr (.inr run)
  case stop.epoch => exact .inr run
  case clrdiag.err => exact .inr ⟨run, rfl⟩
  case clrdiag.faultCnt => exact .inr (.inl run)
  case clrdiag.trigCnt => exact .inr (.inl run)
  all_goals simp

/-- Every turn but a reset writes the registers as listed (10_state.md R32 to R38, R41 to R44). -/
theorem TurnEffect.registerWrites {s t : State} {a : Turn} (h : TurnEffect s a t) (hr : a ≠ .reset) :
    RegisterWrites a s t := by
  cases h with
  | ran hp hd h => exact h.registerWrites ⟨rfl, _, _, hp, hd⟩
  | reset => exact absurd rfl hr
  | stopped h => constructor <;> simp [h]
  | ticked h => constructor <;> simp [h]
  | _ => constructor <;> simp

end Sys2Proof.Machine
end

section
/-! PROOFS. What one turn can do to one voice. -/

namespace Sys2Proof.Machine
open Sys2Proof

/-- What the turn `a` leaves in voice `v`. -/
inductive VoiceEffect (a : Turn) (s : State) (v : Nat) : Voice → Prop
  | kept : VoiceEffect a s v (s.voice v)
  | params {x p : Byte} {val : Word} (f : Param) (hx : x.toNat = v) (h : RunsCommand a s (.setp x p val)) :
      VoiceEffect a s v { s.voice v with
        params := setParam f (clampRaw (rawOf val) (paramLo f) (paramHi s.cfg f)) (s.params v) }
  | cell {x k : Byte} {b : Bool} (hx : x.toNat = v) (h : RunsCommand a s (.sets x k b)) :
      VoiceEffect a s v { s.voice v with grid := (s.voice v).grid.setIfInBounds k.toNat b }
  | cleared (h : RunsCommand a s .clrdiag) : VoiceEffect a s v { s.voice v with ovrCnt := 0 }
  | ticked (h : a = .tick) : VoiceEffect a s v (tickedVoice s s.gstep v)
  | completed (h : a = .complete v) : VoiceEffect a s v { s.voice v with snap := none }

theorem VoiceEffect.of_same {a : Turn} {s t : State} (hv : t.voices = s.voices) (hc : t.cfg = s.cfg) (v : Nat) :
    VoiceEffect a s v (t.voice v) := voice_congr hv hc v ▸ .kept

/-- Writing voice `u` is an effect on `v` if it is one when the two are the same voice. -/
theorem VoiceEffect.of_updateVoice {a : Turn} {s t : State} (hv : t.voices = s.voices) (hc : t.cfg = s.cfg) {u v : Nat}
    {f : Voice → Voice} (hit : u = v → VoiceEffect a s v (f (s.voice v))) :
    VoiceEffect a s v ((updateVoice u f t).voice v) := by
  rw [voice_updateVoice, voice_congr hv hc, voice_congr hv hc]
  split
  · next h => obtain ⟨rfl, -⟩ := h; exact hit rfl
  · exact .kept

theorem voice_clearDiagnostics (s : State) (v : Nat) :
    (clearDiagnostics s).voice v = { s.voice v with ovrCnt := 0 } := by
  simp only [State.voice, clearDiagnostics, List.getD_eq_getElem?_getD, List.getElem?_map]
  cases s.voices[v]? <;> rfl

/-- A voice after a tick is as its own decision says; an index no voice has reads as before. -/
theorem tick_voice_cases (s : State) (v : Nat) :
    (tick s).voice v = s.voice v ∨ (tick s).voice v = tickedVoice s s.gstep v := by
  by_cases hv : v < s.voices.length
  · have := foldl_tickVoice_voice s.gstep (List.range s.cfg.numVoices) s List.nodup_range v hv
    have field : (tick s).voice v = ((List.range s.cfg.numVoices).foldl (tickVoice s.gstep) s).voice v :=
      voice_congr rfl rfl v
    rw [field, this]
    split
    · exact .inr rfl
    · exact .inl rfl
  · left
    simp [State.voice, List.getD_eq_getElem?_getD, hv]

theorem CommandEffect.voiceEffect {s t : State} {rest : List CommandWord} {i : Instr}
    (h : CommandEffect { s with commandIn := rest } i t) (run : RunsCommand .command s i) (v : Nat) :
    VoiceEffect .command s v (t.voice v) := by
  cases h with
  | setp f named => exact .of_updateVoice (by simp) (by simp) fun hx => .params f hx run
  | sets => exact .of_updateVoice rfl rfl fun hx => .cell hx run
  | clrdiag => rw [voice_clearDiagnostics]; exact .cleared run
  | _ => exact .of_same (by simp) (by simp) v

/-- Every turn but a reset leaves a voice as listed (10_state.md R24, R30, R40, R42). -/
theorem TurnEffect.voiceEffect {s t : State} {a : Turn} (h : TurnEffect s a t) (hr : a ≠ .reset) (v : Nat) :
    VoiceEffect a s v (t.voice v) := by
  cases h with
  | ran hp hd h => exact h.voiceEffect ⟨rfl, _, _, hp, hd⟩ v
  | ticked =>
    rcases tick_voice_cases s v with same | ticked
    · rw [same]; exact .kept
    · rw [ticked]; exact .ticked rfl
  | failed => exact .of_updateVoice rfl rfl fun hx => .completed (by rw [hx])
  | discarded => exact .of_updateVoice rfl rfl fun hx => .completed (by rw [hx])
  | delivered => exact .of_updateVoice rfl rfl fun hx => .completed (by rw [hx])
  | reset => exact absurd rfl hr
  | _ => exact .of_same (by simp) (by simp) v

/-- No turn adds or removes a voice, a reset where there are as many as the parameters say. -/
theorem TurnEffect.voices_length {s t : State} {a : Turn} (h : TurnEffect s a t)
    (hn : s.voices.length = s.cfg.numVoices) : t.voices.length = s.voices.length := by
  cases h with
  | ran hp hd h => cases h <;> simp
  | reset => exact (List.length_replicate).trans hn.symm
  | _ => simp

@[simp] theorem tickedVoice_params (s : State) (g : BitVec 64) (v : Nat) :
    (tickedVoice s g v).params = (s.voice v).params := by
  unfold tickedVoice; split_ifs <;> rfl

@[simp] theorem tickedVoice_grid (s : State) (g : BitVec 64) (v : Nat) :
    (tickedVoice s g v).grid = (s.voice v).grid := by
  unfold tickedVoice; split_ifs <;> rfl

/-- A tick snapshots only a free voice (40_transport_clock.md R117). -/
theorem tickedVoice_snap {s : State} {g : BitVec 64} {v : Nat} {sn : Snapshot} (h : (s.voice v).snap = some sn) :
    (tickedVoice s g v).snap = some sn := by
  have busy : s.busy v = true := by simp [State.busy, h]
  unfold tickedVoice
  rw [if_pos busy]
  split <;> exact h

theorem VoiceEffect.params_cases {a : Turn} {s : State} {v : Nat} {x : Voice} (h : VoiceEffect a s v x) :
    x.params = s.params v ∨ ∃ y p val, y.toNat = v ∧ RunsCommand a s (.setp y p val) := by
  cases h with
  | params f hx run => exact .inr ⟨_, _, _, hx, run⟩
  | ticked => exact .inl (tickedVoice_params ..)
  | _ => exact .inl rfl

theorem VoiceEffect.grid_cases {a : Turn} {s : State} {v : Nat} {x : Voice} (h : VoiceEffect a s v x) :
    x.grid = (s.voice v).grid ∨ ∃ y k b, y.toNat = v ∧ RunsCommand a s (.sets y k b) := by
  cases h with
  | cell hx run => exact .inr ⟨_, _, _, hx, run⟩
  | ticked => exact .inl (tickedVoice_grid ..)
  | _ => exact .inl rfl

theorem VoiceEffect.snap_eq {a : Turn} {s : State} {v : Nat} {x : Voice} {sn : Snapshot} (h : VoiceEffect a s v x)
    (hs : (s.voice v).snap = some sn) (hc : a ≠ .complete v) : x.snap = some sn := by
  cases h with
  | ticked => exact tickedVoice_snap hs
  | completed done => exact absurd done hc
  | _ => exact hs

theorem VoiceEffect.ovrCnt_cases {a : Turn} {s : State} {v : Nat} {x : Voice} (h : VoiceEffect a s v x) :
    x.ovrCnt = (s.voice v).ovrCnt ∨ RunsCommand a s .clrdiag ∨ a = .tick := by
  cases h with
  | cleared run => exact .inr (.inl run)
  | ticked tick => exact .inr (.inr tick)
  | _ => exact .inl rfl

end Sys2Proof.Machine
end

section
/-! PROOFS. Which step may change what (10_state.md R24, R30, R32 to R44): each a reading of the effects above. -/

namespace Sys2Proof.Machine
open Sys2Proof

/-- Settles O33: every turn but a CLRDIAG and a reset leaves ERR alone or sets one more flag. -/
theorem errorFlagsAreSticky : Obligations.ErrorFlagsAreSticky := by
  intro s u t a k hn h hr hc hk
  obtain ⟨later, n, rfl⟩ := nextTurn_eq hn
  rcases ((runTurn_effect h).registerWrites hr).err with added | ⟨clears, -⟩
  · exact added.keeps hk
  · exact absurd clears hc

/-- Settles O34: the writers of each control register, from the effects of a turn. -/
theorem controlRegistersHaveTheirWriters : Obligations.ControlRegistersHaveTheirWriters := by
  intro s u t a hn h
  obtain ⟨later, n, rfl⟩ := nextTurn_eq hn
  have effect := runTurn_effect h
  refine ⟨?_, fun hr => ?_⟩
  · by_cases hr : a = .reset
    · subst hr; cases h; rfl
    · exact (effect.registerWrites hr).cfg
  · have w := effect.registerWrites hr
    exact ⟨w.running.resolve_left, fun ne => (w.tempo.resolve_left ne).imp fun _ h => h.1,
      fun ne => (w.duration.resolve_left ne).imp fun _ h => h.1,
      fun ne => (w.config.resolve_left ne).imp fun _ h => h.1, w.epoch.resolve_left, w.sinkOk, w.gstep⟩

/-- Settles O36: of the effects on a voice only a SETP's touches its parameters, and only a SETS's its grid. -/
theorem parametersAndGridHaveTheirWriters : Obligations.ParametersAndGridHaveTheirWriters := by
  intro s u t a v hn h hr
  obtain ⟨later, n, rfl⟩ := nextTurn_eq hn
  have effect := (runTurn_effect h).voiceEffect hr v
  exact ⟨effect.params_cases.resolve_left, effect.grid_cases.resolve_left⟩

/-- Settles O37: of the effects on a voice only its completion's drops a snapshot it holds. -/
theorem snapshotIsFrozenWhileBusy : Obligations.SnapshotIsFrozenWhileBusy := by
  intro s u t a v sn hn h hs hr hc
  obtain ⟨later, n, rfl⟩ := nextTurn_eq hn
  exact ((runTurn_effect h).voiceEffect hr v).snap_eq hs hc

/-- The sink port grows by a completed voice's render alone (45_mixer_quantizer.md R201). -/
theorem TurnEffect.delivered_cases {s t : State} {a : Turn} (h : TurnEffect s a t) (ha : a ≠ .recordOut) :
    t.delivered = s.delivered ∨ ∃ v sn, a = .complete v ∧ (s.voice v).snap = some sn ∧
      t.delivered = s.delivered ++ [render s.cfg v sn] := by
  cases h with
  | ran hp hd h => left; cases h <;> simp
  | delivered hs => exact .inr ⟨_, _, rfl, hs, rfl⟩
  | recordOut => exact absurd rfl ha
  | reset => exact .inl rfl
  | _ => simp

theorem isGetOp_iff (op : Byte) : isGetOp op = true ↔ op = 0x08 ∨ op = 0x09 ∨ op = 0x0A := by
  simp [isGetOp, or_assoc]

/-- A command answers one word if it is of the GET class, and none else (30_encoding.md R87). -/
theorem CommandEffect.responses_cases {s t : State} {i : Instr} (h : CommandEffect s i t) :
    t.responses = s.responses ∨ isGetOp i.opcode = true ∧ ∃ r, t.responses = s.responses ++ [r] := by
  cases h with
  | missed misses v k =>
    by_cases get : isGetOp i.opcode = true
    · exact .inr ⟨get, 0, by simp [get]⟩
    · simp [get]
  | answered get r => exact .inr ⟨get, r, rfl⟩
  | _ => simp

/-- The response port grows by a GET-class word's answer alone (20_memory.md R73, 30_encoding.md R87). -/
theorem TurnEffect.responses_cases {s t : State} {a : Turn} (h : TurnEffect s a t) (hr : a ≠ .reset)
    (ha : a ≠ .responseOut) : t.responses = s.responses ∨ ∃ w rest r, a = .command ∧ s.commandIn = w :: rest ∧
      isGetOp (fieldOp w) = true ∧ t.responses = s.responses ++ [r] := by
  cases h with
  | @rejected w rest _ hp =>
    by_cases get : isGetOp (fieldOp w) = true
    · exact .inr ⟨w, rest, 0, rfl, hp, get, by simp [get]⟩
    · simp [get]
  | ran hp hd h =>
    refine h.responses_cases.imp_right fun ⟨get, r, hr⟩ => ⟨_, _, r, rfl, hp, ?_, hr⟩
    rwa [← decode_opcode hd]
  | responseOut => exact absurd rfl ha
  | reset => exact absurd rfl hr
  | _ => simp

/-- Settles O35: the writers of the counters and of the two output ports, from the effects of a turn. -/
theorem countersHaveTheirWriters : Obligations.CountersHaveTheirWriters := by
  intro s u t a hn h hr
  obtain ⟨later, n, rfl⟩ := nextTurn_eq hn
  have effect := runTurn_effect h
  have w := effect.registerWrites hr
  refine ⟨fun hc => ⟨fun v ne => ?_, fun ne => ?_, fun ne => ?_⟩, ?_, fun ha => ?_, ?_, fun ha ne => ?_⟩
  · exact ((effect.voiceEffect hr v).ovrCnt_cases.resolve_left ne).resolve_left hc
  · exact (w.faultCnt.resolve_left ne).resolve_left hc
  · exact (w.trigCnt.resolve_left ne).resolve_left hc
  · rintro rfl; cases h; rfl
  · exact (effect.delivered_cases ha).resolve_left
  · rintro rfl; cases h; rfl
  · obtain ⟨w, rest, r, command, port, get, answer⟩ := (effect.responses_cases hr ha).resolve_left ne
    exact ⟨w, rest, r, command, port, (isGetOp_iff _).mp get, answer⟩

end Sys2Proof.Machine
end

section
/-! PROOFS. Every step keeps the legal states (10_state.md R28): the samples of a record, the voices, the reset,
the step. -/

namespace Sys2Proof.Machine
open Sys2Proof

/-- A value of an integer's sign, less than 1 beyond it, truncates to an integer between 0 and it. -/
theorem truncReal_mem_uIcc {y : ℝ} {q : ℤ} (h : 0 ≤ y ∧ y < q + 1 ∨ (q : ℝ) - 1 < y ∧ y ≤ 0) :
    truncReal y ∈ Set.uIcc 0 q := by
  rw [Set.mem_uIcc]
  unfold truncReal
  rcases h with ⟨nonneg, below⟩ | ⟨above, nonpos⟩
  · rw [if_pos nonneg]
    exact .inl ⟨Int.floor_nonneg.mpr nonneg, Int.lt_add_one_iff.mp (Int.floor_lt.mpr (by exact_mod_cast below))⟩
  · split
    · next nonneg =>
      obtain rfl : y = 0 := le_antisymm nonpos nonneg
      have : q < 1 := by exact_mod_cast (by linarith : (q : ℝ) < 1)
      exact .inr ⟨by simp; omega, by simp⟩
    · exact .inr ⟨Int.sub_one_lt_iff.mp (Int.lt_ceil.mpr (by exact_mod_cast above)),
        Int.ceil_le.mpr (by exact_mod_cast nonpos)⟩

/-- A value within TOL of a channel's exact product truncates to an integer between 0 and the sample
(45_mixer_quantizer.md R196): a legal gain is no more than 1. -/
theorem truncReal_mem_uIcc_of_near {g : ℕ} (hg : g ≤ 1000000) {q : ℤ} (hq : InPcmRange q) {y : ℝ}
    (near : |y - (channelProduct g q : ℚ)| ≤ 1 / 100000 * |((channelProduct g q : ℚ) : ℝ)|) :
    truncReal y ∈ Set.uIcc 0 q := by
  have product : ((channelProduct g q : ℚ) : ℝ) = q * (g / 1000000) := by
    unfold channelProduct; push_cast; ring
  have g0 : (0 : ℝ) ≤ g / 1000000 := by positivity
  have g1 : (g : ℝ) / 1000000 ≤ 1 := div_le_one_of_le₀ (by exact_mod_cast hg) (by norm_num)
  have lo : (-32768 : ℝ) ≤ q := by exact_mod_cast hq.1
  have hi : (q : ℝ) ≤ 32767 := by exact_mod_cast hq.2
  rw [product] at near
  apply truncReal_mem_uIcc
  rcases le_total 0 (q : ℝ) with nonneg | nonpos
  · have p0 := mul_nonneg nonneg g0
    have p1 := mul_le_of_le_one_right nonneg g1
    rw [abs_of_nonneg p0] at near
    obtain ⟨n1, n2⟩ := abs_le.mp near
    exact .inl ⟨by linarith, by linarith⟩
  · have p0 := mul_nonpos_of_nonpos_of_nonneg nonpos g0
    have p1 : (q : ℝ) ≤ q * (g / 1000000) := le_mul_of_le_one_right nonpos g1
    rw [abs_of_nonpos p0] at near
    obtain ⟨n1, n2⟩ := abs_le.mp near
    exact .inr ⟨by linarith, by linarith⟩

/-- Where the two ends of an exact value's range truncate alike, they truncate as the value does. -/
theorem truncLo_ivExact {tol : ℚ} (ht : 0 ≤ tol) {p : ℚ} (one : truncHi tol (ivExact p) ≤ truncLo tol (ivExact p)) :
    truncLo tol (ivExact p) = truncReal p := by
  obtain ⟨lo, hi⟩ := truncReal_between ht (ivExact_encloses p)
  exact le_antisymm lo (hi.trans one)

theorem truncNear_ivExact (p : ℚ) : truncNear (ivExact p) = truncReal p := by
  simp [truncNear, ivExact, ← truncRat_eq_truncReal]

/-- A channel lies between 0 and the quantized sample, whichever integer R197 admits (45_mixer_quantizer.md R196). -/
theorem channel_mem_uIcc {tol : ℚ} (h0 : 0 ≤ tol) (ht : tol ≤ 1 / 100000) (site : RoundingSite) (x : ℝ) {g : ℕ}
    (hg : g ≤ 1000000) {q : ℤ} (hq : InPcmRange q) :
    channel tol site (ChannelAdmitted tol x g q) g q ∈ Set.uIcc 0 q := by
  have exactly : truncReal ((channelProduct g q : ℚ) : ℝ) ∈ Set.uIcc 0 q :=
    truncReal_mem_uIcc_of_near hg hq (by rw [sub_self, abs_zero]; positivity)
  unfold channel
  rcases truncateProduct_cases tol site (ChannelAdmitted tol x g q) (ivExact (channelProduct g q)) with
    ⟨one, eq⟩ | ⟨-, admitted | eq⟩
  · rwa [eq, truncLo_ivExact h0 one]
  · obtain ⟨⟨y, near, eq⟩, -⟩ := admitted
    have ht' : (tol : ℝ) ≤ 1 / 100000 := by
      have := (Rat.cast_le (K := ℝ)).mpr ht
      push_cast at this
      exact this
    rw [eq]
    exact truncReal_mem_uIcc_of_near hg hq (near.trans (mul_le_mul_of_nonneg_right ht' (abs_nonneg _)))
  · rwa [eq, truncNear_ivExact]

theorem inPcmRange_of_mem_uIcc {q z : ℤ} (hq : InPcmRange q) (h : z ∈ Set.uIcc 0 q) : InPcmRange z := by
  obtain ⟨q1, q2⟩ := hq
  rcases Set.mem_uIcc.mp h with ⟨z1, z2⟩ | ⟨z1, z2⟩
  · exact ⟨by omega, by omega⟩
  · exact ⟨by omega, by omega⟩

/-- Both channels of a legal machine's pair are 16-bit samples. -/
theorem channelOf_mem {c : Config} (hc : c.Legal) (sn : Snapshot) (n : ℕ) (p : Product) {g : ℕ} (hg : g ≤ 1000000)
    {q : ℤ} (hq : InPcmRange q) : InPcmRange (channelOf c sn n p g q) :=
  inPcmRange_of_mem_uIcc hq
    (channel_mem_uIcc (tolerance_nonneg _) (tolerance_range hc).2 _ _ hg hq)

/-- A render of legal channel gains is a legal record (45_mixer_quantizer.md R196). -/
theorem render_legal {c : Config} (hc : c.Legal) {sn : Snapshot} (hl : sn.params.leftGain ≤ 1000000)
    (hr : sn.params.rightGain ≤ 1000000) (v : ℕ) : LegalRecord (render c v sn) := by
  intro p hp
  obtain ⟨n, -, rfl⟩ := List.mem_mapIdx.mp hp
  exact ⟨channelOf_mem hc sn n .left hl (clampPcm_mem _), channelOf_mem hc sn n .right hr (clampPcm_mem _)⟩

/-- The parameters after reset are legal (10_state.md R27). -/
theorem legalParams_reset {c : Config} (hc : c.Legal) : LegalParams c (VoiceParams.reset c) := by
  obtain ⟨-, -, -, gain, gainMax, -, scalars⟩ := hc
  refine ⟨?_, by simp [VoiceParams.reset], ?_⟩
  · simpa [scalarParams, paramLo, paramHi, getParam, VoiceParams.reset, stepCount] using scalars
  · intro g hg
    obtain rfl := List.eq_of_mem_replicate hg
    omega

/-- The state after reset is legal for legal parameters (10_state.md R28, 70_reset_and_hazards.md R273). -/
theorem resetWith_inv {c : Config} (hc : c.Legal) (r : Bool) : (State.resetWith c r).Inv := by
  have tempo : tempoLo ≤ 120000 ∧ 120000 ≤ tempoHi := by decide
  have duration : durationLo ≤ 500000 ∧ 500000 ≤ durationHi := by decide
  have err : (0 : Word).extractLsb' 6 26 = 0 := by decide
  have config : configReservedZero 0 = true := by decide
  refine ⟨hc, List.length_replicate, ?_, tempo, duration, config, err, .inl rfl, Nat.zero_le 7, ?_⟩
  · intro x hx
    obtain rfl := List.eq_of_mem_replicate hx
    exact ⟨legalParams_reset hc, fun sn hsn => nomatch hsn⟩
  · intro r hr
    cases hr

theorem resetStep_inv {s : State} (h : s.Inv) : (resetStep s).Inv := by
  obtain ⟨cfg, len, voices, tempo, duration, config, err, interval, link, -⟩ := resetWith_inv h.1 s.sinkReady
  obtain ⟨-, -, -, -, -, -, -, -, -, delivered⟩ := h
  exact ⟨cfg, len, voices, tempo, duration, config, err, interval, link, delivered⟩

/-- A legal state's voice is legal, the one beyond the list too. -/
theorem voice_legal {s : State} (h : s.Inv) (v : Nat) : LegalVoice s.cfg (s.voice v) := by
  obtain ⟨cfg, -, voices, -⟩ := h
  by_cases hv : v < s.voices.length
  · exact voices _ (voice_mem hv)
  · have : s.voice v = Voice.reset s.cfg := by simp [State.voice, List.getD_eq_getElem?_getD, hv]
    rw [this]
    exact ⟨legalParams_reset cfg, fun sn hsn => nomatch hsn⟩

theorem takeSnapshot_legal {s : State} (h : s.Inv) (v : Nat) (g : BitVec 64) :
    LegalSnapshot s.cfg (takeSnapshot s v g) := by
  have params := (voice_legal h v).1
  obtain ⟨-, -, -, -, duration, config, -⟩ := h
  exact ⟨params, duration, config⟩

theorem tickedVoice_legal {s : State} (h : s.Inv) (g : BitVec 64) (v : Nat) :
    LegalVoice s.cfg (tickedVoice s g v) := by
  have legal := voice_legal h v
  unfold tickedVoice
  split
  · split
    · exact legal
    · exact ⟨legal.1, fun sn hsn => Option.some.inj hsn ▸ takeSnapshot_legal h v g⟩
  · exact legal

/-- No effect makes a voice illegal. -/
theorem VoiceEffect.legal {a : Turn} {s : State} {v : Nat} {x : Voice} (h : VoiceEffect a s v x) (hs : s.Inv) :
    LegalVoice s.cfg x := by
  have legal := voice_legal hs v
  cases h with
  | params f =>
    obtain ⟨lo, hi⟩ := clampRaw_mem _ (paramLo_le_paramHi s.cfg f)
    exact ⟨setParam_legal legal.1 f _ lo hi, legal.2⟩
  | ticked => exact tickedVoice_legal hs _ v
  | completed => exact ⟨legal.1, fun sn hsn => nomatch hsn⟩
  | _ => exact legal

/-- Every voice of the list is legal if each is by its index. -/
theorem forall_mem_voices {s : State} {P : Voice → Prop} (h : ∀ v, P (s.voice v)) : ∀ x ∈ s.voices, P x := by
  intro x hx
  obtain ⟨v, hv⟩ := List.mem_iff_getElem?.mp hx
  exact voice_eq hv ▸ h v

/-- The due time a legal TEMPO gives (40_transport_clock.md R110). -/
theorem tickInterval_mem {n : Nat} (h1 : tempoLo ≤ n) (h2 : n ≤ tempoHi) :
    1 / 16 ≤ tickInterval n ∧ tickInterval n ≤ 1 / 4 := by
  have lo : (60000 : ℚ) ≤ n := by exact_mod_cast h1
  have hi : (n : ℚ) ≤ 240000 := by exact_mod_cast h2
  unfold tickInterval
  rw [div_le_div_iff₀ (by norm_num) (by linarith), div_le_div_iff₀ (by linarith) (by norm_num)]
  constructor <;> linarith

/-- No more than seven bytes wait on the link (20_memory.md R66). -/
theorem TurnEffect.linkBytes_length {s t : State} {a : Turn} (h : TurnEffect s a t) (hl : s.linkBytes.length ≤ 7) :
    t.linkBytes.length ≤ 7 := by
  cases h with
  | ran hp hd h => cases h <;> simpa using hl
  | byteKept b short => simp only [List.length_append, List.length_singleton]; omega
  | byteCompletes => simp
  | reset => exact Nat.zero_le 7
  | _ => simpa using hl

/-- Only legal records are on the sink port (45_mixer_quantizer.md R196). -/
theorem TurnEffect.delivered_legal {s t : State} {a : Turn} (h : TurnEffect s a t) (hs : s.Inv) :
    ∀ r ∈ t.delivered, LegalRecord r := by
  have snaps := voice_legal hs
  obtain ⟨cfg, -, -, -, -, -, -, -, -, delivered⟩ := hs
  by_cases ha : a = .recordOut
  · subst ha
    cases h
    exact fun r hr => delivered r (List.mem_of_mem_tail hr)
  · rcases h.delivered_cases ha with same | ⟨v, sn, -, snap, added⟩
    · rwa [same]
    · obtain ⟨params, -⟩ := (snaps v).2 sn snap
      obtain ⟨-, -, -, -, left, right⟩ := params.bounds
      rw [added]
      exact List.forall_mem_append.mpr ⟨delivered, List.forall_mem_singleton.mpr (render_legal cfg left right v)⟩

/-- Every turn keeps the legal states. -/
theorem TurnEffect.inv {s t : State} {a : Turn} (h : TurnEffect s a t) (hs : s.Inv) : t.Inv := by
  by_cases hr : a = .reset
  · subst hr; cases h; exact resetStep_inv hs
  have w := h.registerWrites hr
  have voices := fun v => (h.voiceEffect hr v).legal hs
  have records := h.delivered_legal hs
  have inv := hs
  obtain ⟨-, len, -, tempo, duration, config, err, interval, link, -⟩ := hs
  refine inv_of_eq inv w.cfg (h.voices_length len) (forall_mem_voices voices) ?_ ?_ ?_ ?_ ?_
    (h.linkBytes_length link) records
  · rcases w.tempo with same | ⟨x, -, written⟩
    · rwa [same]
    · rw [written]; exact clampRaw_mem _ (by decide)
  · rcases w.duration with same | ⟨x, -, written⟩
    · rwa [same]
    · rw [written]; exact clampRaw_mem _ (by decide)
  · rcases w.config with same | ⟨c, -, reserved, written⟩
    · rwa [same]
    · rwa [written]
  · rcases w.err with added | ⟨-, cleared⟩
    · exact added.reserved err
    · rw [cleared]; rfl
  · rcases w.nextInterval with same | zero | ticked
    · rwa [same]
    · exact .inl zero
    · rw [ticked]; exact .inr (tickInterval_mem tempo.1 tempo.2)

/-- Settles O3: a step is one turn, or none, on the same state but for the model's own two fields. -/
theorem everyStepKeepsLegalState : Obligations.EveryStepKeepsLegalState := by
  intro s t hs h
  rcases step_cases h with ⟨-, same⟩ | ⟨a, u, hn, run⟩
  · cases same; exact hs
  · obtain ⟨later, n, rfl⟩ := nextTurn_eq hn
    exact (runTurn_effect run).inv hs

end Sys2Proof.Machine
end

section
/-! PROOFS. The bits of the status words (10_state.md R45). -/

namespace Sys2Proof.Machine
open Sys2Proof

theorem getLsbD_statusWord (s : State) {k : Nat} (hk : k < 32) :
    (statusWord s).getLsbD k = if k = 0 then s.running else if k = 1 then s.sinkOk else false := by
  change BitVec.getLsbD (w := 30 + 1 + 1) (0 ++ BitVec.ofBool s.sinkOk ++ BitVec.ofBool s.running) k = _
  rw [BitVec.getLsbD_append, BitVec.getLsbD_append]
  rcases k with _ | _ | k
  · simp
  · simp
  · simp

theorem getLsbD_busyWord (s : State) {k : Nat} (hk : k < 32) :
    (busyWord s).getLsbD k = (decide (k < s.cfg.numVoices) && s.busy k) := by
  rw [busyWord, BitVec.getLsbD_ofNat, testBit_natOfBits, List.getD_eq_getElem?_getD, List.getElem?_map]
  by_cases h : k < s.cfg.numVoices
  · simp [h, hk]
  · simp [h]

/-- The number of two words side by side. -/
theorem toNat_append_eq {m n : Nat} (x : BitVec m) (y : BitVec n) : (x ++ y).toNat = x.toNat * 2 ^ n + y.toNat := by
  rw [BitVec.toNat_append, ← Nat.shiftLeft_add_eq_or_of_lt y.isLt, Nat.shiftLeft_eq]

theorem toNat_capsWord {c : Config} (h : c.Legal) :
    (capsWord c).toNat = c.numVoices + 2 ^ 8 * c.eqBands + 2 ^ 16 * 32 + 2 ^ 24 * 1 := by
  obtain ⟨⟨-, voices⟩, -, ⟨-, bands⟩, -⟩ := h
  simp only [capsWord, toNat_append_eq, BitVec.ofNat_eq_ofNat, BitVec.toNat_ofNat, stepCount]
  rw [Nat.mod_eq_of_lt (by omega : c.numVoices < 2 ^ 8), Nat.mod_eq_of_lt (by omega : c.eqBands < 2 ^ 8)]
  omega

/-- Settles O28: bit by bit for STATUS and BUSY, as a number for CAPS. -/
theorem statusWordsHaveTheirBits : Obligations.StatusWordsHaveTheirBits := fun s _ hk =>
  ⟨getLsbD_statusWord s hk, getLsbD_busyWord s hk, toNat_capsWord⟩

end Sys2Proof.Machine
end

section
/-! PROOFS. A grid cell beyond the loop and the tick (10_state.md R31, 40_transport_clock.md R113). -/

namespace Sys2Proof.Machine
open Sys2Proof

/-- Writing a cell changes a voice's grid alone. -/
theorem voice_writeCell (s : State) (u v i : Nat) (b : Bool) :
    (writeCell v i b s).voice u =
      { s.voice u with grid := if u = v ∧ v < s.voices.length then (s.voice u).grid.setIfInBounds i b
                               else (s.voice u).grid } := by
  unfold writeCell
  rw [voice_updateVoice]
  split
  · next h => rw [h.1]
  · rfl

/-- A change of a voice that leaves its parameters alone leaves every voice's alone. -/
theorem params_updateVoice {f : Voice → Voice} (h : ∀ c, (f c).params = c.params) (u v : Nat) (s : State) :
    (updateVoice v f s).params u = s.params u := by
  unfold State.params
  rw [voice_updateVoice]
  split
  · next hit => rw [h, hit.1]
  · rfl

@[simp] theorem params_writeCell (s : State) (u v i : Nat) (b : Bool) :
    (writeCell v i b s).params u = s.params u := params_updateVoice (fun _ => by rfl) u v s

@[simp] theorem busy_writeCell (s : State) (u v i : Nat) (b : Bool) : (writeCell v i b s).busy u = s.busy u := by
  simp [State.busy, voice_writeCell]

/-- Another cell reads as before the write. -/
theorem gridCell_writeCell_other (s : State) (u v : Nat) (b : Bool) {i j : Nat} (h : u = v → j ≠ i) :
    (writeCell v i b s).gridCell u j = s.gridCell u j := by
  unfold State.gridCell
  rw [voice_writeCell]
  dsimp only
  split
  · next hu => rw [Vector.getElem?_setIfInBounds_ne (Ne.symm (h hu.1))]
  · rfl

/-- A voice's loop is not empty and ends at or before the cell. -/
def BeyondLoop (s : State) (v i : Nat) : Prop := 1 ≤ (s.params v).loopLength ∧ (s.params v).loopLength ≤ i

/-- The step index lies in the loop, so no decision sees a cell beyond it (R113). -/
theorem tickTriggers_writeCell {s : State} {v i : Nat} (h : BeyondLoop s v i) (b : Bool) (g : BitVec 64) (u : Nat) :
    tickTriggers (writeCell v i b s) g u = tickTriggers s g u := by
  have index : stepIndex (writeCell v i b s) u g = stepIndex s u g := by simp [stepIndex]
  have other : u = v → stepIndex s u g ≠ i := by
    rintro rfl
    exact ((Nat.mod_lt _ h.1).trans_le h.2).ne
  unfold tickTriggers
  rw [index, params_writeCell, gridCell_writeCell_other s u v b other]

/-- Changes of voices that commute as changes of one voice commute. -/
theorem updateVoice_comm {f k : Voice → Voice} (h : ∀ c, f (k c) = k (f c)) (u v : Nat) (s : State) :
    updateVoice u f (updateVoice v k s) = updateVoice v k (updateVoice u f s) := by
  have voices : (s.voices.modify v k).modify u f = (s.voices.modify u f).modify v k := by
    apply List.ext_getElem?
    intro n
    simp only [List.getElem?_modify]
    cases s.voices[n]? with
    | none => rfl
    | some c => by_cases hu : u = n <;> by_cases hv : v = n <;> simp [hu, hv, h]
  simp [updateVoice, voices]

theorem writeSnap_writeCell (s : State) (u v i : Nat) (b : Bool) (o : Option Snapshot) :
    writeSnap u o (writeCell v i b s) = writeCell v i b (writeSnap u o s) := updateVoice_comm (fun _ => by rfl) u v s

theorem countOverrun_writeCell (s : State) (u v i : Nat) (b : Bool) :
    countOverrun u (writeCell v i b s) = writeCell v i b (countOverrun u s) := updateVoice_comm (fun _ => by rfl) u v s

theorem trigger_writeCell (s : State) (u v i : Nat) (b : Bool) (g : BitVec 64) :
    trigger u g (writeCell v i b s) = writeCell v i b (trigger u g s) := by
  have snapshot : takeSnapshot (writeCell v i b s) u g = takeSnapshot s u g := by simp [takeSnapshot]
  unfold trigger
  rw [busy_writeCell]
  split
  · rw [dropTrigger, countOverrun_writeCell]
    rfl
  · rw [acceptTrigger, snapshot, writeSnap_writeCell]
    rfl

theorem tickVoice_writeCell {s : State} {v i : Nat} (h : BeyondLoop s v i) (b : Bool) (g : BitVec 64) (u : Nat) :
    tickVoice g (writeCell v i b s) u = writeCell v i b (tickVoice g s u) := by
  unfold tickVoice
  rw [tickTriggers_writeCell h]
  split
  · exact trigger_writeCell s u v i b g
  · rfl

/-- One voice's part of a tick changes no parameters. -/
theorem tickVoice_params (g : BitVec 64) (s : State) (u v : Nat) : (tickVoice g s u).params v = s.params v := by
  unfold tickVoice trigger
  split
  · split
    · exact params_updateVoice (fun _ => by rfl) v u s
    · exact params_updateVoice (fun _ => by rfl) v u s
  · rfl

theorem foldl_tickVoice_writeCell (g : BitVec 64) (v i : Nat) (b : Bool) (l : List Nat) :
    ∀ {s : State}, BeyondLoop s v i →
      l.foldl (tickVoice g) (writeCell v i b s) = writeCell v i b (l.foldl (tickVoice g) s) := by
  induction l with
  | nil => exact fun _ => rfl
  | cons u l ih =>
    intro s h
    have h' : BeyondLoop (tickVoice g s u) v i := by unfold BeyondLoop; rwa [tickVoice_params]
    rw [List.foldl_cons, List.foldl_cons, tickVoice_writeCell h, ih h']

theorem tick_writeCell {s : State} {v i : Nat} (h : BeyondLoop s v i) (b : Bool) :
    tick (writeCell v i b s) = writeCell v i b (tick s) :=
  congrArg (fun t : State => { t with gstep := s.gstep + 1, nextInterval := tickInterval s.tempo })
    (foldl_tickVoice_writeCell s.gstep v i b (List.range s.cfg.numVoices) h)

/-- Settles O40: in a legal state every loop is at least 1 long, so the cell lies beyond the loop. -/
theorem cellsBeyondTheLoopNeverMatter : Obligations.CellsBeyondTheLoopNeverMatter := by
  intro s v i b hs hi
  have beyond : BeyondLoop s v i := ⟨((voice_legal hs v).1.1 .loopLength (by decide)).1, hi⟩
  exact ⟨tick_writeCell beyond b, tickTriggers_writeCell beyond b⟩

end Sys2Proof.Machine
end

section
/-! PROOFS. Words as bytes (20_memory.md R64, R66): a word is its bytes, least significant first, and a command's word
decodes to the command. -/

namespace Sys2Proof

theorem bytesOfCommand_eq (w : CommandWord) :
    bytesOfCommand w = [w.extractLsb' 0 8, w.extractLsb' 8 8, w.extractLsb' 16 8, w.extractLsb' 24 8,
      w.extractLsb' 32 8, w.extractLsb' 40 8, w.extractLsb' 48 8, w.extractLsb' 56 8] := rfl

theorem wordOfBytes_bytes (w : CommandWord) :
    wordOfBytes (w.extractLsb' 0 8) (w.extractLsb' 8 8) (w.extractLsb' 16 8) (w.extractLsb' 24 8)
      (w.extractLsb' 32 8) (w.extractLsb' 40 8) (w.extractLsb' 48 8) (w.extractLsb' 56 8) = w := by
  simp only [wordOfBytes, BitVec.extractLsb'_append_extractLsb'_eq_extractLsb']
  exact BitVec.extractLsb'_eq_self

theorem bytesOfResponse_append (w : Word) :
    w.extractLsb' 24 8 ++ w.extractLsb' 16 8 ++ w.extractLsb' 8 8 ++ w.extractLsb' 0 8 = w := by
  simp only [BitVec.extractLsb'_append_extractLsb'_eq_extractLsb']
  exact BitVec.extractLsb'_eq_self

theorem decodeBytes_bytesOfCommand {w : CommandWord} {i : Instr} (h : decode w = .ok i) (rest : List Byte) :
    decodeBytes (bytesOfCommand w ++ rest) = .ok (i, rest) := by
  simp only [bytesOfCommand_eq, List.cons_append, List.nil_append, decodeBytes, wordOfBytes_bytes, h]

/-- Masking an assembled word masks each of its fields (30_encoding.md R80). -/
theorem assemble_and (op v i : Byte) (b : Bool) (x : Word) (m : CommandWord) :
    assemble op v i b x &&& m = assemble (op &&& fieldOp m) (v &&& fieldV m) (i &&& fieldI m) (b && fieldB m)
      (x &&& fieldVal m) := by
  apply BitVec.eq_of_getLsbD_eq
  intro k hk
  have field {a : Nat} (h : ¬ k < a) (h' : k < a + 8) : (m.extractLsb' a 8).getLsbD (k - a) = m.getLsbD k := by
    rw [BitVec.getLsbD_extractLsb', Nat.add_sub_of_le (not_lt.mp h), decide_eq_true (by omega), Bool.true_and]
  simp only [BitVec.getLsbD_and, getLsbD_assemble, fieldOp, fieldV, fieldI, fieldB, fieldVal]
  split_ifs
  · simp [*]
  · simp [*]
  · rfl
  · rw [field ‹_› ‹_›]
  · rw [field ‹_› ‹_›]
  · rw [field ‹_› hk]

/-- The reserved bits of SETCFG's operand, masked out of an operand that has none (46_control_commands.md R226). -/
theorem and_reservedBits {c : Word} (h : c.extractLsb' 2 30 = 0) : c &&& 0xFFFFFFFC#32 = 0 := by
  have fields : c = (0 : BitVec 30) ++ c.extractLsb' 0 2 := by
    rw [← h, BitVec.extractLsb'_append_extractLsb'_eq_extractLsb' (by rfl)]
    exact BitVec.extractLsb'_eq_self.symm
  calc c &&& 0xFFFFFFFC#32 = ((0 : BitVec 30) ++ c.extractLsb' 0 2) &&& (BitVec.allOnes 30 ++ (0 : BitVec 2)) := by
        rw [← fields]; rfl
    _ = 0 := by rw [BitVec.and_append]; simp

theorem assemble_zero : assemble 0#8 0#8 0#8 false 0#32 = 0 := by decide

/-- The word of a well-formed command has zeros where R81 marks "0", field by field. -/
theorem encode_zeroFields {i : Instr} (h : i.WellFormed) : encode i &&& zeroMask i.opcode = 0 := by
  cases i with
  | setcfg c =>
    have reserved := and_reservedBits (c := c) (by simpa [Instr.WellFormed, Instr.wellFormed] using h)
    simp [encode, assemble_and, Instr.opcode, zeroMask, fieldOp, fieldV, fieldI, fieldB, fieldVal, reserved,
      assemble_zero]
  | _ => simp [encode, assemble_and, Instr.opcode, zeroMask, fieldOp, fieldV, fieldI, fieldB, fieldVal, assemble_zero]

/-- The decoder reads the command of a well-formed command's word (30_encoding.md R81, R85). -/
theorem decode_encode {i : Instr} (h : i.WellFormed) : decode (encode i) = .ok i := by
  have op : fieldOp (encode i) = i.opcode := by cases i <;> exact fieldOp_assemble ..
  have accepted {j : Instr} (hj : j = i) : checkZeroFields (encode i) j = .ok i :=
    checkZeroFields_ok.mpr ⟨by rw [op, encode_zeroFields h], hj⟩
  rw [decode, op]
  cases i <;> exact accepted (by simp [encode])

end Sys2Proof

namespace Sys2Proof.Machine
open Sys2Proof

/-- A byte short of the eighth is kept (20_memory.md R66). -/
theorem receiveByte_of_short {s : State} (b : Byte) (h : s.linkBytes.length < 7) :
    receiveByte b s = { s with linkBytes := s.linkBytes ++ [b] } := by
  unfold receiveByte
  split
  · next seven => simp [seven] at h
  · rfl

theorem receiveByte_eighth {s : State} {b0 b1 b2 b3 b4 b5 b6 : Byte} (b : Byte)
    (h : s.linkBytes = [b0, b1, b2, b3, b4, b5, b6]) :
    receiveByte b s = receiveWord (wordOfBytes b0 b1 b2 b3 b4 b5 b6 b) { s with linkBytes := [] } := by
  simp [receiveByte, h]

/-- Bytes that complete no word are kept in the order of their arrival (20_memory.md R66). -/
theorem runsTo_bytes_kept (bytes : List Byte) (s : State) (h : s.linkBytes.length + bytes.length ≤ 7) :
    RunsTo (fun _ _ => True) (bytes.map .byteIn) s { s with linkBytes := s.linkBytes ++ bytes } := by
  induction bytes generalizing s with
  | nil => simp [RunsTo]
  | cons b bytes ih =>
    have short : s.linkBytes.length < 7 := by simp at h; omega
    refine ⟨trivial, _, congrArg Host.Outcome.next (receiveByte_of_short b short), ?_⟩
    have kept := ih { s with linkBytes := s.linkBytes ++ [b] } (by simp at h ⊢; omega)
    simpa using kept

/-- Turns run one list after the other. -/
theorem RunsTo.append {P : Turn → State → Prop} {as bs : List Turn} {s t u : State} (h : RunsTo P as s t)
    (h' : RunsTo P bs t u) : RunsTo P (as ++ bs) s u := by
  induction as generalizing s with
  | nil => cases h; exact h'
  | cons a as ih =>
    obtain ⟨allowed, r, run, rest⟩ := h
    exact ⟨allowed, r, run, ih rest⟩

/-- Eight bytes over an empty link put their word at the end of the command queue (20_memory.md R64, R66; log
entry 22). -/
theorem runsTo_bytesOfCommand {s : State} (w : CommandWord) (h : s.linkBytes = []) :
    RunsTo (fun _ _ => True) ((bytesOfCommand w).map .byteIn) s (receiveWord w s) := by
  have seven := runsTo_bytes_kept ((bytesOfCommand w).take 7) s (by simp [h, bytesOfCommand])
  have eighth : receiveByte (w.extractLsb' 56 8) { s with linkBytes := s.linkBytes ++ (bytesOfCommand w).take 7 } =
      receiveWord w { s with linkBytes := [] } :=
    (receiveByte_eighth _ (by rw [h]; rfl)).trans (congrArg (receiveWord · _) (wordOfBytes_bytes w))
  have emptied : receiveWord w s = receiveWord w { s with linkBytes := [] } := by rw [← h]
  rw [emptied]
  exact seven.append (bs := [.byteIn (w.extractLsb' 56 8)]) ⟨trivial, _, congrArg Host.Outcome.next eighth, rfl⟩

/-- Settles O10: arrivals by the rules of the two ports, and both byte orders by cutting a word at its bytes. -/
theorem byteLinkCarriesWords : Obligations.ByteLinkCarriesWords :=
  ⟨fun _ _ => rfl, fun _ b h => congrArg Host.Outcome.next (receiveByte_of_short b h),
    fun _ w h => runsTo_bytesOfCommand w h, fun _ rest h => decodeBytes_bytesOfCommand (decode_encode h) rest,
    fun w => ⟨_, _, _, _, rfl, bytesOfResponse_append w⟩⟩

end Sys2Proof.Machine
end

section
/-! PROOFS. The step and the turn it takes (20_memory.md R68, R69): the enabled agents, the host's turn, a completion. -/

namespace Sys2Proof.Machine
open Sys2Proof

/-- With nothing scheduled the only enabled turn is what the step runs (R68). -/
theorem step_of_enabledTurns_eq_singleton {s : State} {t : Turn} (hs : s.schedule = []) (h : enabledTurns s = [t]) :
    step s = runTurn t s := by
  simp [step, nextTurn, hs, h]

/-- With nothing scheduled and nothing enabled the state waits (log entry 5). -/
theorem step_of_enabledTurns_eq_nil {s : State} (hs : s.schedule = []) (h : enabledTurns s = []) :
    step s = .next s := by
  simp [step, nextTurn, hs, h]

/-- With several turns enabled, the free value picks one of them (R68; log entry 4). -/
theorem step_of_enabledTurns_eq_cons_cons {s : State} {t u : Turn} {ts : List Turn} (hs : s.schedule = [])
    (h : enabledTurns s = t :: u :: ts) : ∃ a ∈ enabledTurns s, step s = runTurn a { s with draws := s.draws + 1 } := by
  have inRange : Config.agentChoice s.draws % (ts.length + 2) < (t :: u :: ts).length := Nat.mod_lt _ (by omega)
  refine ⟨(t :: u :: ts)[Config.agentChoice s.draws % (ts.length + 2)], by rw [h]; exact List.getElem_mem inRange, ?_⟩
  simp only [step, nextTurn, hs, h, List.getD_eq_getElem _ t inRange]

theorem mem_enabledTurns {s : State} {t : Turn} : t ∈ enabledTurns s ↔
    (t = .command ∧ s.commandIn ≠ []) ∨ (t = .tick ∧ s.running = true) ∨
      ∃ v, t = .complete v ∧ v < s.cfg.numVoices ∧ s.busy v = true := by
  have command : t ∈ (if s.commandIn.isEmpty then [] else [.command]) ↔ t = .command ∧ s.commandIn ≠ [] := by
    cases s.commandIn <;> simp
  have clock : t ∈ (if s.running then [.tick] else []) ↔ t = .tick ∧ s.running = true := by
    cases s.running <;> simp
  have completion : t ∈ (busyVoices s).map .complete ↔ ∃ v, t = .complete v ∧ v < s.cfg.numVoices ∧ s.busy v = true := by
    simp only [busyVoices, List.mem_map, List.mem_filter, List.mem_range]
    exact exists_congr fun v => and_comm.trans (and_congr_left' eq_comm)
  rw [enabledTurns, List.mem_append, List.mem_append, command, clock, completion, or_assoc]

/-- A word on the port of a block that neither runs nor renders enables the host alone. -/
theorem enabledTurns_eq_command {s : State} (hp : s.commandIn ≠ []) (hr : s.running = false)
    (hb : ∀ v, v < s.cfg.numVoices → s.busy v = false) : enabledTurns s = [.command] := by
  have free : busyVoices s = [] := by simpa [busyVoices] using hb
  simp [enabledTurns, hp, hr, free]

theorem commandStep_cons {s : State} {w : CommandWord} {rest : List CommandWord} (hp : s.commandIn = w :: rest) :
    commandStep s = executeWord w { s with commandIn := rest } := by
  simp [commandStep, takeWord, hp]

theorem commandStep_nil {s : State} (hp : s.commandIn = []) : commandStep s = .next s := by
  simp [commandStep, takeWord, hp]

theorem executeWord_ok {w : CommandWord} {i : Instr} (hd : decode w = .ok i) (s : State) :
    executeWord w s = exec i s := by
  simp [executeWord, hd]

theorem withFetchWord_toNat (s : State) (w : CommandWord) : s.withFetchWord 64 w.toNat = presentWord w s := by
  rw [State.withFetchWord, Nat.mod_eq_of_lt w.isLt, BitVec.ofNat_toNat, BitVec.setWidth_eq]

/-- Without a snapshot a voice is not busy (10_state.md R40). -/
theorem busy_eq_false_iff {s : State} {v : Nat} : s.busy v = false ↔ (s.voice v).snap = none := by
  simp [State.busy]

theorem busy_writeSnap_none {s : State} {v : Nat} (h : v < s.voices.length) : (writeSnap v none s).busy v = false :=
  busy_eq_false_iff.mpr (by rw [writeSnap, voice_updateVoice_same h])

/-- A completion of a free voice passes (log entry 5). -/
theorem renderStep_of_free {s : State} {v : Nat} (h : s.busy v = false) : renderStep v s = s := by
  simp [renderStep, busy_eq_false_iff.mp h]

/-- A completion leaves its voice free, whether the render failed, was discarded or was delivered
(45_mixer_quantizer.md R200). -/
theorem TurnEffect.busy_of_complete {s t : State} {v : Nat} (h : TurnEffect s (.complete v) t)
    (hv : v < s.voices.length) : t.busy v = false := by
  cases h with
  | free hf => exact busy_eq_false_iff.mpr hf
  | failed => exact busy_writeSnap_none (s := { raiseErr .. with faultCnt := _ }) hv
  | discarded => exact busy_writeSnap_none hv
  | delivered => exact busy_writeSnap_none hv

/-- Settles O4: each of the three ways leads to the host's turn with the word at the head of the port. -/
theorem stepRunsDecodedCommand : Obligations.StepRunsDecodedCommand := by
  intro s w i hd _
  refine ⟨fun rest later hp hs => ?_, fun rest hp hs hr hb => ?_, ?_⟩
  · rw [step_scheduled hs]
    exact commandStep_ok hp hd
  · rw [step_of_enabledTurns_eq_singleton hs (enabledTurns_eq_command (by simp [hp]) hr hb)]
    exact commandStep_ok hp hd
  · rw [withFetchWord_toNat, step_presentWord, executeWord_ok hd]

/-- Settles O5: the step is the scheduled turn, and each kind of turn runs or passes. -/
theorem scheduledTurnsRunWhenEnabled : Obligations.ScheduledTurnsRunWhenEnabled := by
  intro s later
  have turn {t : Turn} (hs : s.schedule = t :: later) : step s = runTurn t { s with schedule := later } :=
    step_scheduled hs
  refine ⟨fun t hs => turn hs, fun hs => ?_, fun v hs hv hb => ?_, fun v hs hb => ?_, fun w rest hs hp => ?_,
    fun hs hp => ?_⟩
  · rw [turn hs, runTurn, clockStep]
  · exact ⟨_, turn hs, rfl, (renderStep_effect v _).busy_of_complete hv⟩
  · exact (turn hs).trans (congrArg Host.Outcome.next (renderStep_of_free (s := { s with schedule := later }) hb))
  · exact (turn hs).trans (commandStep_cons hp)
  · exact (turn hs).trans (commandStep_nil hp)

/-- Settles O6, by the number of enabled turns: none, one, or several to pick from. -/
theorem unscheduledStepTakesAnEnabledTurn : Obligations.UnscheduledStepTakesAnEnabledTurn := by
  intro s hs
  refine ⟨step_of_enabledTurns_eq_nil hs, fun nonempty => ?_, fun t => mem_enabledTurns⟩
  match h : enabledTurns s with
  | [] => exact absurd h nonempty
  | [t] => exact ⟨t, List.mem_singleton_self t, s.draws, step_of_enabledTurns_eq_singleton hs h⟩
  | t :: u :: ts =>
    obtain ⟨a, enabled, run⟩ := step_of_enabledTurns_eq_cons_cons hs h
    exact ⟨a, h ▸ enabled, s.draws + 1, run⟩

end Sys2Proof.Machine
end

section
/-! PROOFS. Which indices exist (20_memory.md R61, 30_encoding.md R88 to R91). -/

namespace Sys2Proof.Machine
open Sys2Proof

/-- The ids R90 leaves unassigned: those between MUTE and the EQ gains, and those beyond the last EQ gain. (Of the
lookup's fourteen arms the last is the one of the EQ gains and of everything else.) -/
theorem paramOfId_eq_none_iff (c : Config) (p : Byte) :
    paramOfId c p = none ↔ (0x0D ≤ p.toNat ∧ p.toNat ≤ 0x1F) ∨ 0x20 + c.eqBands ≤ p.toNat := by
  unfold paramOfId
  split
  case h_14 =>
    split
    · simp only [reduceCtorEq, false_iff]; omega
    · simp only [true_iff, imp_false] at *; omega
  all_goals (simp only [reduceCtorEq, false_iff]; omega)

theorem paramOfId_eqGain_id {c : Config} {k : Nat} (hk : k < c.eqBands) (hc : c.eqBands ≤ 32) :
    paramOfId c (BitVec.ofNat 8 (0x20 + k)) = some (.eqGain k) := by
  have id : (BitVec.ofNat 8 (0x20 + k)).toNat = 0x20 + k := by simp; omega
  unfold paramOfId
  split
  case h_14 => rw [id, if_pos (by omega), Nat.add_sub_cancel_left]
  all_goals omega

theorem namedParam_eq_none_iff (s : State) (v p : Byte) : namedParam s v p = none ↔
    s.cfg.numVoices ≤ v.toNat ∨ (0x0D ≤ p.toNat ∧ p.toNat ≤ 0x1F) ∨ 0x20 + s.cfg.eqBands ≤ p.toNat := by
  rw [← paramOfId_eq_none_iff]
  by_cases h : v.toNat < s.cfg.numVoices
  · simp [namedParam, voiceExists, h]
  · simp [namedParam, voiceExists, h, not_lt.mp h]

theorem cellExists_iff (s : State) (v i : Byte) :
    cellExists s v i = true ↔ v.toNat < s.cfg.numVoices ∧ i.toNat < 32 := by
  rw [cellExists, Bool.and_eq_true, voiceExists, stepExists, decide_eq_true_iff, decide_eq_true_iff]
  rfl

theorem readStatus_eq_none_iff (s : State) (i : Byte) :
    readStatus s i = none ↔ i.toNat = 0x0F ∨ 0x10 + s.cfg.numVoices ≤ i.toNat := by
  unfold readStatus
  split
  case h_16 =>
    split
    · simp only [reduceCtorEq, false_iff]; omega
    · simp only [true_iff, imp_false] at *; omega
  all_goals (simp only [reduceCtorEq, false_iff]; omega)

/-- Settles O13: each index space by the lemma on its lookup, and the table of R90 row by row. -/
theorem indicesThatExist : Obligations.IndicesThatExist :=
  ⟨namedParam_eq_none_iff, cellExists_iff, readStatus_eq_none_iff,
    fun _ => ⟨rfl, rfl, rfl, rfl, rfl, rfl, rfl, rfl, rfl, rfl, rfl, rfl, rfl⟩, fun _ _ => paramOfId_eqGain_id⟩

end Sys2Proof.Machine
end

section
/-! PROOFS. What a set command and a get command do, once and twice (20_memory.md R67). -/

namespace Sys2Proof.Machine
open Sys2Proof

/-- Recording the same error twice records it once. -/
theorem raiseErr_idem (c : ErrCode) (x : Byte) (d : BitVec 16) (s : State) :
    raiseErr c x d (raiseErr c x d s) = raiseErr c x d s := by
  simp [raiseErr, setErrFlag_idem]

theorem reportClamp_idem (raw : Int) (lo hi : Nat) (op i x : Byte) (s : State) :
    reportClamp raw lo hi op i x (reportClamp raw lo hi op i x s) = reportClamp raw lo hi op i x s := by
  unfold reportClamp
  split
  · exact raiseErr_idem ..
  · rfl

/-- A change of one voice that has no further effect the second time. -/
theorem updateVoice_idem {f : Voice → Voice} (h : ∀ c, f (f c) = f c) (v : Nat) (s : State) :
    updateVoice v f (updateVoice v f s) = updateVoice v f s := by
  have twice : f ∘ f = f := funext h
  simp [updateVoice, List.modify_modify_eq, twice]

theorem writeParam_idem (v : Nat) (f : Param) (x : Nat) (s : State) :
    writeParam v f x (writeParam v f x s) = writeParam v f x s :=
  updateVoice_idem (fun c => by simp [setParam_setParam]) v s

theorem writeCell_idem (v i : Nat) (b : Bool) (s : State) : writeCell v i b (writeCell v i b s) = writeCell v i b s :=
  updateVoice_idem (fun c => by simp) v s

/-- The clamp report commutes with a change that neither sees nor touches what `raiseErr` records. -/
theorem reportClamp_comm {f : State → State} (h : ∀ c x d s, raiseErr c x d (f s) = f (raiseErr c x d s))
    (raw : Int) (lo hi : Nat) (op i x : Byte) (s : State) :
    reportClamp raw lo hi op i x (f s) = f (reportClamp raw lo hi op i x s) := by
  unfold reportClamp
  split
  · exact h ..
  · rfl

/-- A clamped value stored twice, each time with its report, is stored and reported once (46_control_commands.md
R213). -/
theorem store_reportClamp_idem {f : State → State} (hf : ∀ s, f (f s) = f s)
    (h : ∀ c x d s, raiseErr c x d (f s) = f (raiseErr c x d s)) (raw : Int) (lo hi : Nat) (op i x : Byte) (s : State) :
    f (reportClamp raw lo hi op i x (f (reportClamp raw lo hi op i x s))) = f (reportClamp raw lo hi op i x s) := by
  rw [reportClamp_comm h, hf, reportClamp_idem]

theorem storeParam_idem (v p : Byte) (f : Param) (raw : Int) (s : State) :
    storeParam v p f raw (storeParam v p f raw s) = storeParam v p f raw s := by
  have once := store_reportClamp_idem (writeParam_idem v.toNat f (clampRaw raw (paramLo f) (paramHi s.cfg f)))
    (fun _ _ _ _ => rfl) raw (paramLo f) (paramHi s.cfg f) 0x01 p v s
  rwa [← storeParam, ← storeParam_cfg v p f raw s] at once

theorem rejectAddress_of_not_get {op : Byte} (h : isGetOp op = false) (v i : Byte) (s : State) :
    rejectAddress op v i s = raiseErr .badAddr v (commandDetail op i) s := by
  simp [rejectAddress, respondZeroIfGet, h]

theorem rejectAddress_idem {op : Byte} (h : isGetOp op = false) (v i : Byte) (s : State) :
    rejectAddress op v i (rejectAddress op v i s) = rejectAddress op v i s := by
  simp only [rejectAddress_of_not_get h, raiseErr_idem]

/-- A GET that names what does not exist: BAD_ADDR and the response 0 (60_exceptions.md R245). -/
theorem rejectAddress_of_get {op : Byte} (h : isGetOp op = true) (v i : Byte) (s : State) :
    rejectAddress op v i s = { s with
      responses := s.responses ++ [0], err := s.err ||| 4, lastErr := lastErrWord .badAddr v (commandDetail op i) } := by
  have flag : setErrFlag .badAddr s.err = s.err ||| 4 := rfl
  simp [rejectAddress, respondZeroIfGet, h, respond, raiseErr, flag]

/-- Which parameter a voice and an id name depends on the implementation parameters alone. -/
theorem namedParam_congr {s t : State} (h : t.cfg = s.cfg) (v p : Byte) : namedParam t v p = namedParam s v p := by
  simp [namedParam, voiceExists, h]

theorem cellExists_congr {s t : State} (h : t.cfg = s.cfg) (v i : Byte) : cellExists t v i = cellExists s v i := by
  simp [cellExists, voiceExists, h]

theorem execSetp_idem {v p : Byte} {val : Word} {s t : State} (h : execSetp v p val s = .next t) :
    execSetp v p val t = .next t := by
  unfold execSetp at h ⊢
  cases hn : namedParam s v p with
  | none =>
    simp only [hn] at h
    cases h
    simp only [namedParam_congr (rejectAddress_cfg ..), hn]
    rw [rejectAddress_idem rfl]
  | some f =>
    simp only [hn] at h
    cases h
    simp only [namedParam_congr (storeParam_cfg ..), hn]
    rw [storeParam_idem]

theorem execSets_idem {v i : Byte} {b : Bool} {s t : State} (h : execSets v i b s = .next t) :
    execSets v i b t = .next t := by
  unfold execSets at h ⊢
  split at h
  · next found =>
    cases h
    rw [cellExists_congr (writeCell_cfg ..), if_pos found, writeCell_idem]
  · next missing =>
    cases h
    rw [cellExists_congr (rejectAddress_cfg ..), if_neg missing, rejectAddress_idem rfl]

theorem execSett_idem {val : Word} {s t : State} (h : execSett val s = .next t) : execSett val t = .next t := by
  cases h
  exact congrArg Host.Outcome.next (store_reportClamp_idem
    (f := fun s => { s with tempo := clampRaw (rawOf val) tempoLo tempoHi }) (fun _ => rfl) (fun _ _ _ _ => rfl)
    (rawOf val) tempoLo tempoHi 0x03 0x00 noVoice s)

theorem execSetd_idem {val : Word} {s t : State} (h : execSetd val s = .next t) : execSetd val t = .next t := by
  cases h
  exact congrArg Host.Outcome.next (store_reportClamp_idem
    (f := fun s => { s with duration := clampRaw (rawOf val) durationLo durationHi }) (fun _ => rfl)
    (fun _ _ _ _ => rfl) (rawOf val) durationLo durationHi 0x06 0x00 noVoice s)

theorem execSetcfg_idem {c : Word} {s t : State} (h : execSetcfg c s = .next t) : execSetcfg c t = .next t := by
  unfold execSetcfg at h ⊢
  split at h
  · next zero =>
    cases h
    rw [if_pos zero]
  · next reserved =>
    cases h
    rw [if_neg reserved, raiseErr_idem]

/-- Settles O30: each of the five set commands, the second time on the state it left. -/
theorem setCommandsAreIdempotent : Obligations.SetCommandsAreIdempotent := by
  rintro i s t (⟨v, p, x, rfl⟩ | ⟨v, k, b, rfl⟩ | ⟨x, rfl⟩ | ⟨x, rfl⟩ | ⟨c, rfl⟩) h
  · exact execSetp_idem h
  · exact execSets_idem h
  · exact execSett_idem h
  · exact execSetd_idem h
  · exact execSetcfg_idem h

/-- A GET either responds, or names what does not exist and is rejected (46_control_commands.md R217). -/
theorem exec_get {i : Instr} (get : isGetOp i.opcode = true) (s : State) :
    (¬ MissesAddress s i ∧ ∃ r, exec i s = .next (respond r s)) ∨
      (MissesAddress s i ∧ ∃ v k, exec i s = .next (rejectAddress i.opcode v k s)) := by
  cases i with
  | getp v p =>
    simp only [exec, execGetp]
    split
    · next h => exact .inr ⟨h, v, p, rfl⟩
    · next f h => exact .inl ⟨by simp [MissesAddress, h], _, rfl⟩
  | gets v k =>
    simp only [exec, execGets]
    split
    · next h => exact .inl ⟨by simp [MissesAddress, h], _, rfl⟩
    · next h => exact .inr ⟨eq_false_of_ne_true h, v, k, rfl⟩
  | getstat k =>
    simp only [exec, execGetstat]
    split
    · next h => exact .inr ⟨h, 0x00, k, rfl⟩
    · next w h => exact .inl ⟨by simp [MissesAddress, h], _, rfl⟩
  | _ => simp [isGetOp, Instr.opcode] at get

/-- Settles O31: a GET responds, or is rejected with the response 0 when it misses its address. -/
theorem getCommandsOnlyRespond : Obligations.GetCommandsOnlyRespond := by
  intro i s hi missing
  have get : isGetOp i.opcode = true := by
    rcases hi with ⟨v, p, rfl⟩ | ⟨v, k, rfl⟩ | ⟨k, rfl⟩ <;> rfl
  have misses : missing ↔ MissesAddress s i := by
    rcases hi with ⟨v, p, rfl⟩ | ⟨v, k, rfl⟩ | ⟨k, rfl⟩ <;> simp [missing, MissesAddress]
  rcases exec_get get s with ⟨h, r, run⟩ | ⟨h, v, k, run⟩
  · exact ⟨_, run, fun _ => ⟨r, rfl⟩, fun m => absurd (misses.mp m) h⟩
  · refine ⟨_, run, fun m => absurd (misses.mpr h) m, fun _ => ?_⟩
    rw [rejectAddress_of_get get]

end Sys2Proof.Machine
end

section
/-! PROOFS. Decoding and encoding are inverse to each other, and the decoder accepts exactly the rows of the opcode table
(30_encoding.md R80 to R85, R94; spec/opcode_table.json). -/

namespace Sys2Proof

/-- Settles O7: each field of the word is read back, and its zero-fields are zero. -/
theorem decodeInvertsEncode : Obligations.DecodeInvertsEncode := fun _ h => decode_encode h

/-- Bits a word's mask covers are zero when the masked word is. -/
theorem extractLsb'_eq_zero_of_and {w m : CommandWord} (h : w &&& m = 0) {a n : Nat}
    (hm : m.extractLsb' a n = BitVec.allOnes n) : w.extractLsb' a n = 0 := by
  calc w.extractLsb' a n = (w &&& m).extractLsb' a n := by rw [BitVec.extractLsb'_and, hm, BitVec.and_allOnes]
    _ = 0 := by rw [h]; exact BitVec.extractLsb'_zero

theorem getLsbD_eq_false_of_and {w m : CommandWord} (h : w &&& m = 0) {k : Nat} (hm : m.getLsbD k = true) :
    w.getLsbD k = false := by
  calc w.getLsbD k = (w &&& m).getLsbD k := by rw [BitVec.getLsbD_and, hm, Bool.and_true]
    _ = false := by rw [h]; exact BitVec.getLsbD_zero

theorem opcode_lt (i : Instr) : i.opcode.toNat < 0x0C := by
  cases i <;> simp [Instr.opcode]

/-- The zero-fields of every assigned opcode take in RSV (30_encoding.md R81). -/
theorem zeroMask_reserved {op : Byte} (hop : op.toNat < 0x0C) {k : Nat} (h : 33 ≤ k) (h' : k < 40) :
    (zeroMask op).getLsbD k = true := by
  have covered : ∀ n < 0x0C, ∀ k < 40, 33 ≤ k → (zeroMask (BitVec.ofNat 8 n)).getLsbD k = true := by decide
  simpa using covered op.toNat hop k h' h

/-- An accepted word is the word of the command read from it: a field of the word is an operand, or R81 marks it "0". -/
theorem encode_decode {w : CommandWord} {i : Instr} (h : decode w = .ok i) : encode i = w := by
  have op : i.opcode = fieldOp w := decode_opcode h
  have zero : w &&& zeroMask i.opcode = 0 := by rw [op]; exact decode_zeroFields h
  have noV (hm : fieldV (zeroMask i.opcode) = BitVec.allOnes 8) : fieldV w = 0 := extractLsb'_eq_zero_of_and zero hm
  have noI (hm : fieldI (zeroMask i.opcode) = BitVec.allOnes 8) : fieldI w = 0 := extractLsb'_eq_zero_of_and zero hm
  have noB (hm : fieldB (zeroMask i.opcode) = true) : fieldB w = false := getLsbD_eq_false_of_and zero hm
  have noVal (hm : fieldVal (zeroMask i.opcode) = BitVec.allOnes 32) : fieldVal w = 0 :=
    extractLsb'_eq_zero_of_and zero hm
  have fields := assemble_fields w fun k h33 h40 =>
    getLsbD_eq_false_of_and zero (zeroMask_reserved (opcode_lt i) h33 h40)
  rw [← op] at fields
  -- The cases are the opcodes in R83's order, grouped by the fields R81 marks "0".
  unfold decode at h
  split at h
  case h_13 => cases h
  all_goals
    obtain ⟨-, rfl⟩ := checkZeroFields_ok.mp h
    simp only [Instr.opcode] at noV noI noB noVal
  case h_1 | h_5 | h_6 | h_12 => rwa [noV rfl, noI rfl, noB rfl, noVal rfl] at fields
  case h_2 => rwa [noB rfl] at fields
  case h_3 => rwa [noVal rfl] at fields
  case h_4 | h_7 | h_8 => rwa [noV rfl, noI rfl, noB rfl] at fields
  case h_9 | h_10 => rwa [noB rfl, noVal rfl] at fields
  case h_11 => rwa [noV rfl, noB rfl, noVal rfl] at fields

/-- Of the commands SETCFG alone can be ill-formed, and its reserved bits are a zero-field (46_control_commands.md
R226). -/
theorem decode_wellFormed {w : CommandWord} {i : Instr} (h : decode w = .ok i) : i.WellFormed := by
  cases i with
  | setcfg c =>
    have zero := decode_zeroFields h
    rw [← decode_opcode h] at zero
    have operand : fieldVal w = c := by
      rw [← encode_decode h]
      exact fieldVal_assemble ..
    have reserved : w.extractLsb' 2 30 = 0 := extractLsb'_eq_zero_of_and (m := 0x00FFFFFFFFFFFFFC) zero rfl
    simpa [← operand, fieldVal, Instr.WellFormed, Instr.wellFormed] using reserved
  | _ => rfl

/-- Settles O8: what R81 marks "0" is zero in an accepted word, so its operands fix it. -/
theorem encodeInvertsDecode : Obligations.EncodeInvertsDecode := fun _ _ h => ⟨decode_wellFormed h, encode_decode h⟩

/-- A word is accepted exactly when its opcode is assigned and its zero-fields are zero (30_encoding.md R84). -/
theorem decode_isOk_iff (w : CommandWord) :
    (∃ i, decode w = .ok i) ↔ (fieldOp w).toNat < 0x0C ∧ w &&& zeroMask (fieldOp w) = 0 := by
  refine ⟨fun ⟨i, hi⟩ => ⟨?_, decode_zeroFields hi⟩, fun ⟨hop, hz⟩ => decode_isOk hop hz⟩
  rw [← decode_opcode hi]
  exact opcode_lt i

/-- The rows stand in the order of their opcodes, one for each assigned opcode. -/
theorem opcodes_opcodeTable : opcodeTable.map (fieldOp ·.bits) = (List.range 12).map (BitVec.ofNat 8) := by decide

theorem exists_row_iff (op : Byte) : (∃ r ∈ opcodeTable, fieldOp r.bits = op) ↔ op.toNat < 0x0C := by
  rw [← List.mem_map (f := fun r : OpcodeRow => fieldOp r.bits), opcodes_opcodeTable, List.mem_map]
  constructor
  · rintro ⟨n, hn, rfl⟩
    have := List.mem_range.mp hn
    rw [BitVec.toNat_ofNat]
    omega
  · exact fun h => ⟨op.toNat, List.mem_range.mpr h, by simp⟩

theorem row_eq_of_opcode_eq {r q : OpcodeRow} (hr : r ∈ opcodeTable) (hq : q ∈ opcodeTable)
    (h : fieldOp r.bits = fieldOp q.bits) : r = q :=
  List.inj_on_of_nodup_map (f := fun r : OpcodeRow => fieldOp r.bits) (by decide) hr hq h

theorem fieldOp_append (w : CommandWord) : fieldOp w ++ w.extractLsb' 0 56 = w := by
  rw [fieldOp, BitVec.extractLsb'_append_extractLsb'_eq_extractLsb' (by rfl)]
  exact BitVec.extractLsb'_eq_self

theorem append_inj {op op' : Byte} {x y : BitVec 56} : op ++ x = op' ++ y ↔ op = op' ∧ x = y := by
  refine ⟨fun h => ⟨?_, ?_⟩, fun ⟨hop, hx⟩ => hop ▸ hx ▸ rfl⟩
  · rw [← BitVec.extractLsb'_append_eq_left (a := op) (b := x), h, BitVec.extractLsb'_append_eq_left]
  · rw [← BitVec.extractLsb'_append_eq_right (a := op) (b := x), h, BitVec.extractLsb'_append_eq_right]

/-- A row's bits are its opcode, and its mask is the whole OP field with the opcode's zero-fields. -/
theorem row_fields : ∀ r ∈ opcodeTable, r.bits = fieldOp r.bits ++ 0#56 ∧
    r.mask = BitVec.allOnes 8 ++ r.mask.extractLsb' 0 56 ∧
    zeroMask (fieldOp r.bits) = 0#8 ++ r.mask.extractLsb' 0 56 := by decide

/-- The words of a row are those of its opcode whose zero-fields are zero. -/
theorem matchesWord_iff {r : OpcodeRow} (hr : r ∈ opcodeTable) (w : CommandWord) :
    r.matchesWord w = true ↔ fieldOp w = fieldOp r.bits ∧ w &&& zeroMask (fieldOp w) = 0 := by
  obtain ⟨bits, mask, zeros⟩ := row_fields r hr
  have masked (op : Byte) (x : BitVec 56) : w &&& (op ++ x) = (fieldOp w &&& op) ++ (w.extractLsb' 0 56 &&& x) := by
    rw [← BitVec.and_append, fieldOp_append]
  calc r.matchesWord w = true ↔ w &&& r.mask = r.bits := beq_iff_eq
    _ ↔ fieldOp w = fieldOp r.bits ∧ w.extractLsb' 0 56 &&& r.mask.extractLsb' 0 56 = 0#56 := by
        rw [mask, bits, masked, BitVec.and_allOnes, append_inj, ← bits, ← mask]
    _ ↔ fieldOp w = fieldOp r.bits ∧ w &&& zeroMask (fieldOp r.bits) = 0#8 ++ 0#56 := by
        rw [zeros, masked, BitVec.and_zero, BitVec.append_right_inj]
    _ ↔ _ := and_congr_right fun op => by rw [op]; rfl

/-- Settles O9: a row has the accepted words of one opcode, and each assigned opcode has one row. -/
theorem acceptedWordsAreTheTableRows : Obligations.AcceptedWordsAreTheTableRows := by
  refine fun w => ⟨?_, fun r hr q hq hrw hqw => ?_⟩
  · rw [decode_isOk_iff, ← exists_row_iff]
    constructor
    · rintro ⟨⟨r, hr, op⟩, zero⟩
      exact ⟨r, hr, (matchesWord_iff hr w).mpr ⟨op.symm, zero⟩⟩
    · rintro ⟨r, hr, h⟩
      obtain ⟨op, zero⟩ := (matchesWord_iff hr w).mp h
      exact ⟨⟨r, hr, op.symm⟩, zero⟩
  · obtain ⟨rop, -⟩ := (matchesWord_iff hr w).mp hrw
    obtain ⟨qop, -⟩ := (matchesWord_iff hq w).mp hqw
    exact row_eq_of_opcode_eq hr hq (rop.symm.trans qop)

end Sys2Proof

namespace Sys2Proof.Machine
open Sys2Proof

/-- The line assembles to the one command of the word. -/
theorem assembles_of_decodes {line : List Char} {w : CommandWord}
    (h : (assembleLine line).map (·.map Except.ok) = some [decode w]) :
    ∃ i, assembleLine line = some [i] ∧ encode i = w ∧ decode w = .ok i := by
  obtain ⟨commands, assembled, h⟩ := Option.map_eq_some_iff.mp h
  obtain ⟨i, rfl, hi⟩ := List.map_eq_singleton_iff.mp h
  exact ⟨i, assembled, encode_decode hi.symm, hi.symm⟩

/-- Settles O11: each line assembles to the command its word decodes to, by evaluation. -/
theorem exampleLinesGiveTheListedWords : Obligations.ExampleLinesGiveTheListedWords := by
  intro e he
  apply assembles_of_decodes
  revert e he
  decide +kernel

theorem executeWord_error {w : CommandWord} {e : DecodeError} (hd : decode w = .error e) (s : State) :
    executeWord w s = .next (rejectWord w s) := by
  simp [executeWord, hd]

/-- A malformed word's whole next state (30_encoding.md R84, 60_exceptions.md R244). -/
theorem executeWord_malformed {w : CommandWord} (h : 0x0C ≤ (fieldOp w).toNat ∨ w &&& zeroMask (fieldOp w) ≠ 0)
    (s : State) :
    executeWord w s = .next { s with
      err := s.err ||| 2
      lastErr := fieldOp w ++ fieldI w ++ (0xFF : Byte) ++ (2 : Byte)
      responses := if isGetOp (fieldOp w) then s.responses ++ [0] else s.responses } := by
  obtain ⟨e, he⟩ := (decode_error_iff w).mpr h
  rw [executeWord_error he, rejectWord, respondZeroIfGet]
  split <;> rfl

theorem malformedRejected (op : Byte) : MalformedRejected op (zeroMask op) := by
  rintro w s rfl nonzero
  simp only [executeWord_malformed (.inr nonzero), isGetOp_iff]

/-- Settles O12: each mask of R81 is the decoder's for its opcode, and the decoder rejects nothing else. -/
theorem malformedWordsRaiseBadCmd : Obligations.MalformedWordsRaiseBadCmd := by
  refine ⟨fun w s reserved => ?_, malformedRejected 0x00, malformedRejected 0x01, malformedRejected 0x02,
    malformedRejected 0x03, malformedRejected 0x04, malformedRejected 0x05, malformedRejected 0x06,
    malformedRejected 0x07, malformedRejected 0x08, malformedRejected 0x09, malformedRejected 0x0A,
    malformedRejected 0x0B, fun _ hop hz => decode_isOk hop hz⟩
  have notGet : ¬ isGetOp (fieldOp w) = true := by
    rw [isGetOp_iff]
    rintro (op | op | op) <;> simp [op] at reserved
  rw [executeWord_malformed (.inl reserved), if_neg notGet]

/-- Settles O15: by the word's outcome, rejected, a GET's, or another command's. -/
theorem getClassAnswersExactlyOnce : Obligations.GetClassAnswersExactlyOnce := by
  intro w s
  rw [← isGetOp_iff]
  cases decoded : decode w with
  | error e =>
    refine ⟨_, executeWord_error decoded s, fun get => ⟨0, by simp [get], fun _ => rfl⟩, fun get => by simp [get]⟩
  | ok i =>
    rw [executeWord_ok decoded, ← decode_opcode decoded]
    by_cases get : isGetOp i.opcode = true
    · rcases exec_get get s with ⟨h, r, run⟩ | ⟨h, v, k, run⟩
      · refine ⟨_, run, fun _ => ⟨r, rfl, fun missing => absurd ?_ h⟩, fun no => absurd get no⟩
        rcases missing with ⟨e, he⟩ | ⟨v, p, hi, no⟩ | ⟨v, k, hi, no⟩ | ⟨k, hi, no⟩
        · cases he
        all_goals cases hi; exact no
      · exact ⟨_, run, fun _ => ⟨0, by simp [get], fun _ => rfl⟩, fun no => absurd get no⟩
    · obtain ⟨t, run, effect⟩ := exec_effect i s
      refine ⟨t, run, fun yes => absurd yes get, fun _ => ?_⟩
      rcases effect.responses_cases with same | ⟨yes, -⟩
      · exact same
      · exact absurd yes get

end Sys2Proof.Machine
end

section
/-! PROOFS. The transport's commands (40_transport_clock.md R122 to R128): what each leaves, as one record update. -/

namespace Sys2Proof.Machine
open Sys2Proof

/-- The clamp as the spec's max and min (46_control_commands.md R213). -/
theorem clampRaw_eq_max_min (raw : Int) {lo hi : Nat} (h : lo ≤ hi) :
    clampRaw raw lo hi = (max (lo : Int) (min raw hi)).toNat := by
  unfold clampRaw
  split
  · omega
  · split <;> omega

/-- The clamp report records CFG_CLAMP exactly when the value lies outside the range (60_exceptions.md R243). -/
theorem reportClamp_eq (raw : Int) {lo hi : Nat} (h : lo ≤ hi) (op i x : Byte) (s : State) :
    reportClamp raw lo hi op i x s = { s with
      err := if raw < lo ∨ (hi : Int) < raw then s.err ||| 1 else s.err
      lastErr := if raw < lo ∨ (hi : Int) < raw then lastErrWord .cfgClamp x (commandDetail op i) else s.lastErr } := by
  simp only [reportClamp, clamped_iff raw h]
  split <;> rfl

/-- Settles O20, from the clamp and its report. -/
theorem settStoresClampedTempo : Obligations.SettStoresClampedTempo := by
  refine ⟨fun s val => ?_, malformedRejected 0x03⟩
  have range : tempoLo ≤ tempoHi := by decide
  rw [exec, execSett, reportClamp_eq _ range, clampRaw_eq_max_min _ range]
  rfl

theorem exec_start_of_running {s : State} (h : s.running = true) : exec .start s = .next s := by
  simp [exec, execStart, h]

theorem exec_start_of_ready {s : State} (h : s.running = false) (ready : s.sinkOk = true) :
    exec .start s = .next { s with running := true, nextInterval := 0 } := by
  simp [exec, execStart, h, ready]

theorem exec_start_of_unready {s : State} (h : s.running = false) (unready : s.sinkOk = false) :
    exec .start s = .next (raiseErr .devUnavail noVoice (commandDetail 0x04 0x00) s) := by
  simp [exec, execStart, h, unready]

/-- Settles O23, by the three cases of R122. -/
theorem startRunsOrRefuses : Obligations.StartRunsOrRefuses :=
  ⟨fun _ h => exec_start_of_running h, fun _ h ready => ⟨_, exec_start_of_ready h ready, rfl⟩,
    fun _ h unready => exec_start_of_unready h unready, malformedRejected 0x04⟩

theorem exec_stop_of_running {s : State} (h : s.running = true) :
    exec .stop s = .next { s with running := false, epoch := s.epoch + 1 } := by
  simp [exec, execStop, h]

theorem exec_stop_of_stopped {s : State} (h : s.running = false) : exec .stop s = .next s := by
  simp [exec, execStop, h]

/-- Settles O24, by the two cases of R125. -/
theorem stopClearsRunningAndCountsEpoch : Obligations.StopClearsRunningAndCountsEpoch :=
  ⟨fun _ h => exec_stop_of_running h, fun _ h => exec_stop_of_stopped h, malformedRejected 0x05⟩

end Sys2Proof.Machine
end

section
/-! PROOFS. A render that a STOP overtook (40_transport_clock.md R126, 70_reset_and_hazards.md R286): it stays in flight,
of an epoch gone by, until its completion discards it. -/

namespace Sys2Proof.Machine
open Sys2Proof

/-- What every allowed turn keeps holds at the end of a run. -/
theorem RunsTo.preserves {allowed : Turn → State → Prop} {P : State → Prop}
    (keeps : ∀ {a s t}, allowed a s → runTurn a s = .next t → P s → P t) :
    ∀ {turns : List Turn} {s t : State}, RunsTo allowed turns s t → P s → P t
  | [], _, _, h, hs => h ▸ hs
  | _ :: _, _, _, ⟨ok, _, run, rest⟩, hs => RunsTo.preserves keeps rest (keeps ok run hs)

/-- A voice that holds a snapshot is one of the list; beyond it a voice reads as after reset. -/
theorem lt_of_snap_eq_some {s : State} {v : Nat} {sn : Snapshot} (h : (s.voice v).snap = some sn) :
    v < s.voices.length := by
  by_contra beyond
  have reset : s.voice v = Voice.reset s.cfg := by simp [State.voice, List.getD_eq_getElem?_getD, beyond]
  rw [reset] at h
  cases h

/-- The render of `sn` is in flight on voice `v`, and its epoch is not EPOCH. -/
def StaleInFlight (v : Nat) (sn : Snapshot) (s : State) : Prop := (s.voice v).snap = some sn ∧ sn.epoch ≠ s.epoch

/-- Of the turns that keep the snapshot only a STOP changes EPOCH (10_state.md R38, R40). -/
theorem TurnEffect.staleInFlight {s t : State} {a : Turn} {v : Nat} {sn : Snapshot} (h : TurnEffect s a t)
    (hc : a ≠ .complete v) (hr : a ≠ .reset) (hstop : ¬ RunsCommand a s .stop) (stale : StaleInFlight v sn s) :
    StaleInFlight v sn t := by
  obtain ⟨snap, epoch⟩ := stale
  have sameEpoch : t.epoch = s.epoch := (h.registerWrites hr).epoch.resolve_right hstop
  exact ⟨(h.voiceEffect hr v).snap_eq snap hc, sameEpoch ▸ epoch⟩

/-- The completion of a stale render, whether it failed or not, delivers nothing (45_mixer_quantizer.md R200). -/
theorem TurnEffect.delivered_eq_of_stale {s t : State} {v : Nat} {sn : Snapshot} (h : TurnEffect s (.complete v) t)
    (stale : StaleInFlight v sn s) : t.delivered = s.delivered := by
  obtain ⟨snap, epoch⟩ := stale
  cases h with
  | free => rfl
  | failed => rfl
  | discarded => rfl
  | delivered snap' _ same =>
    obtain rfl : _ = sn := Option.some.inj (snap'.symm.trans snap)
    exact absurd same epoch

/-- Settles O42: the STOP makes the render stale, every turn that comes between keeps it so, and then its completion
discards it. -/
theorem stopDiscardsRendersInFlight : Obligations.StopDiscardsRendersInFlight := by
  intro s t u v sn turns running _ snap epoch stopped run
  have atStop : StaleInFlight v sn t := by
    rw [exec_stop_of_running running] at stopped
    cases stopped
    exact ⟨snap, epoch⟩
  have stale : StaleInFlight v sn u := run.preserves
    (fun ⟨hc, hr, hstop⟩ turn stale => (runTurn_effect turn).staleInFlight hc hr hstop stale) atStop
  have completion := renderStep_effect v u
  exact ⟨by simp [State.busy, stale.1], _, rfl, completion.busy_of_complete (lt_of_snap_eq_some stale.1),
    completion.delivered_eq_of_stale stale⟩

end Sys2Proof.Machine
end

section
/-! PROOFS. The tick of a legal state (40_transport_clock.md R113 to R118): each voice's decision in the spec's terms. -/

namespace Sys2Proof.Machine
open Sys2Proof

/-- The saturating counter as the spec's minimum (40_transport_clock.md R117). -/
theorem saturatingSucc_eq_min (n : Word) : saturatingSucc n = BitVec.ofNat 32 (min (n.toNat + 1) (2 ^ 32 - 1)) := by
  unfold saturatingSucc
  split
  · next full => rw [full]; rfl
  · next notFull =>
    have notTop : n.toNat ≠ 2 ^ 32 - 1 := fun top => notFull (BitVec.eq_of_toNat_eq top)
    have below : n.toNat + 1 ≤ 2 ^ 32 - 1 := by omega
    rw [Nat.min_eq_left below]
    simp [BitVec.ofNat_add]

/-- In a legal state every step index is a step of the grid (R115). -/
theorem stepIndex_lt {s : State} (h : s.Inv) (v : Nat) (g : BitVec 64) : stepIndex s v g < stepCount := by
  obtain ⟨lo, hi⟩ : 1 ≤ (s.params v).loopLength ∧ (s.params v).loopLength ≤ stepCount :=
    (voice_legal h v).1.1 .loopLength (by decide)
  exact (Nat.mod_lt _ lo).trans_le hi

/-- So in a legal state muting and the cell alone decide (R113). -/
theorem tickTriggers_of_inv {s : State} (h : s.Inv) (g : BitVec 64) (v : Nat) :
    tickTriggers s g v = ((s.params v).mute == 0 && s.gridCell v (stepIndex s v g)) := by
  simp [tickTriggers, stepIndex_lt h v g]

/-- What a tick leaves in TRIG_CNT (R118). -/
theorem tick_trigCnt (s : State) : (tick s).trigCnt =
    s.trigCnt + BitVec.ofNat 32 ((List.range s.cfg.numVoices).countP (tickAccepts s s.gstep)) :=
  foldl_tickVoice_trigCnt s.gstep _ s List.nodup_range

theorem tickedVoice_of_not_triggers {s : State} {g : BitVec 64} {v : Nat} (h : ¬ tickTriggers s g v = true) :
    tickedVoice s g v = s.voice v := if_neg h

theorem tickedVoice_of_busy {s : State} {g : BitVec 64} {v : Nat} (h : tickTriggers s g v = true)
    (busy : s.busy v = true) :
    tickedVoice s g v = { s.voice v with ovrCnt := saturatingSucc (s.voice v).ovrCnt } :=
  (if_pos h).trans (if_pos busy)

theorem tickedVoice_of_free {s : State} {g : BitVec 64} {v : Nat} (h : tickTriggers s g v = true)
    (free : s.busy v = false) :
    tickedVoice s g v = { s.voice v with snap := some (takeSnapshot s v g) } :=
  (if_pos h).trans (if_neg (by simp [free]))

/-- Settles O38: the tick's frame with its count of accepted triggers, and each voice by its decision. -/
theorem tickDecidesEveryVoice : Obligations.TickDecidesEveryVoice := by
  intro s inv running
  have length : s.voices.length = s.cfg.numVoices := inv.2.1
  have accepts : tickAccepts s s.gstep = fun v =>
      (s.params v).mute == 0 && s.gridCell v (stepIndex s v s.gstep) && !s.busy v :=
    funext fun v => by rw [tickAccepts, tickTriggers_of_inv inv]
  refine ⟨tick s, by simp [runTurn, clockStep, running], ?_, tick_voices_length s, fun v hv => ?_⟩
  · have count := tick_trigCnt s
    rw [accepts] at count
    exact (tick_frame s).trans (by rw [count]; rfl)
  · have triggers : tickTriggers s s.gstep v = true ↔
        (s.params v).mute = 0 ∧ s.gridCell v (stepIndex s v s.gstep) = true := by
      simp [tickTriggers_of_inv inv]
    rw [tick_voice s hv (length ▸ hv)]
    refine ⟨fun silent => ?_, fun sounds busy => ?_, fun sounds free => ?_⟩
    · exact tickedVoice_of_not_triggers (mt triggers.mp silent)
    · rw [tickedVoice_of_busy (triggers.mpr sounds) busy, saturatingSucc_eq_min]
    · exact tickedVoice_of_free (triggers.mpr sounds) free

end Sys2Proof.Machine
end

section
/-! PROOFS. The render stage by stage (41_tone_generator.md R141 to R144, 44_envelope.md R180, R181,
45_mixer_quantizer.md R198): how long each stage's output is, and what a sample of it is on the exact reals. -/

namespace Sys2Proof.Machine
open Sys2Proof

variable {α : Type}

/-- The phase in radians of an oscillator's unit sine is 2·π·f·n/Fs, its frequency f in hertz (R140, R142). -/
theorem sinTurn_phaseTurns (fs f n : ℕ) :
    realArith.sinTurn (phaseTurns fs f n) = Real.sin (2 * Real.pi * ((f : ℝ) / 1000) * n / fs) := by
  unfold realArith phaseTurns
  push_cast
  congr 1
  ring

/-- The exact tone sample (41_tone_generator.md R142). -/
theorem toneSample_realArith (fs f1 f2 n : ℕ) :
    toneSample realArith fs f1 f2 n =
      (Real.sin (2 * Real.pi * ((f1 : ℝ) / 1000) * n / fs) + Real.sin (2 * Real.pi * ((f2 : ℝ) / 1000) * n / fs)) / 2 := by
  rw [toneSample, sinTurn_phaseTurns, sinTurn_phaseTurns]
  simp only [realArith]
  push_cast
  ring

/-- Settles O50: each sine lies in [-1, 1], and so does the mean of two. -/
theorem toneIsTheMeanOfTwoSines : Obligations.ToneIsTheMeanOfTwoSines := by
  intro fs f1 f2 n _
  refine ⟨toneSample_realArith fs f1 f2 n, ?_⟩
  rw [toneSample_realArith, abs_div, abs_two, div_le_one two_pos]
  calc |Real.sin _ + Real.sin _| ≤ |Real.sin _| + |Real.sin _| := abs_add_le _ _
    _ ≤ 1 + 1 := add_le_add (Real.abs_sin_le_one _) (Real.abs_sin_le_one _)
    _ = 2 := one_add_one_eq_two

/-! How long each stage's output is -/

/-- `fit` truncates or pads to exactly the length asked for (44_envelope.md R171). -/
@[simp] theorem length_fit (xs : List ℚ) (n : ℕ) : (fit xs n).length = n := by
  rw [fit, List.length_append, List.length_take, List.length_replicate]
  omega

/-- Either variant ends in `fit` (44_envelope.md R175, R178, R180). -/
@[simp] theorem length_envelope (fs n : ℕ) (sn : Snapshot) : (envelope fs n sn).length = n := by
  unfold envelope
  simp only
  split
  · exact length_fit _ n
  · exact length_fit _ n

@[simp] theorem length_tone (A : Arith α) (fs : ℕ) (sn : Snapshot) :
    (tone A fs sn).length = renderLength fs sn.dur := by
  simp [tone]

@[simp] theorem length_spectralEq (A : Arith α) (gains : List ℕ) (x : List α) :
    (spectralEq A gains x).length = x.length := by
  simp [spectralEq]

@[simp] theorem length_eqStage (A : Arith α) (gains : List ℕ) (x : List α) :
    (eqStage A gains x).length = x.length := by
  unfold eqStage
  split
  · exact length_spectralEq A _ x
  · split
    · exact List.length_map _
    · exact length_spectralEq A _ x

@[simp] theorem length_distort (A : Arith α) (amount : ℕ) (e : List α) : (distort A amount e).length = e.length := by
  unfold distort
  split
  · rfl
  · exact List.length_map _

@[simp] theorem length_mixLevel (A : Arith α) (sn : Snapshot) (m : List α) : (mixLevel A sn m).length = m.length := by
  unfold mixLevel
  split
  · exact List.length_map _
  · rfl

/-- The signal path has N samples over any EQ stage that keeps the length (41_tone_generator.md R141). -/
theorem length_signalPath (A : Arith α) {eq : List ℕ → List α → List α}
    (keeps : ∀ gains x, (eq gains x).length = x.length) (fs : ℕ) (sn : Snapshot) :
    (signalPath A eq fs sn).length = renderLength fs sn.dur := by
  simp [signalPath, applyEnvelope, keeps]

theorem length_renderPairs (c : Config) (sn : Snapshot) :
    (renderPairs c sn).length = renderLength c.sampleRate sn.dur := by
  rw [renderPairs, List.length_mapIdx, length_signalPath ivArith (length_eqStage ivArith)]

/-! What a sample of each stage is -/

theorem getElem?_renderPairs {c : Config} {sn : Snapshot} {n : ℕ} {a : Iv}
    (h : (signalPath ivArith (eqStage ivArith) c.sampleRate sn)[n]? = some a) :
    (renderPairs c sn)[n]? = some (pan c sn n (quantize c sn n a)) := by
  rw [renderPairs, List.getElem?_mapIdx, h, Option.map_some]

/-- The exact tone of a snapshot (41_tone_generator.md R140 to R142). -/
theorem tone_realArith (fs : ℕ) (sn : Snapshot) :
    tone realArith fs sn = (List.range (renderLength fs sn.dur)).map fun k : ℕ =>
      (Real.sin (2 * Real.pi * ((sn.params.osc1Freq : ℝ) / 1000) * k / fs) +
        Real.sin (2 * Real.pi * ((sn.params.osc2Freq : ℝ) / 1000) * k / fs)) / 2 :=
  List.map_congr_left fun k _ => toneSample_realArith fs _ _ k

/-- One sample through the distortion (43_distortion.md R166, R167). -/
theorem getElem?_distort_realArith (amount : ℕ) {xs : List ℝ} {n : ℕ} {e : ℝ} (he : xs[n]? = some e) :
    (distort realArith amount xs)[n]? =
      some (if amount = 0 then e else Real.tanh ((1 + 10 * ((amount : ℝ) / 1000000)) * e)) := by
  unfold distort
  split
  · exact he
  · simp [he, realArith, distortionGain]

/-- One sample under the envelope (44_envelope.md R181). -/
theorem getElem?_applyEnvelope_realArith {env : List ℚ} {xs : List ℝ} {n : ℕ} {d : ℝ} (h : n < env.length)
    (hd : xs[n]? = some d) : (applyEnvelope realArith env xs)[n]? = some (((env.getD n 0 : ℚ) : ℝ) * d) := by
  simp [applyEnvelope, List.getElem?_zipWith, hd, h, realArith]

/-- One sample at the level of the mixer, or at 1 (45_mixer_quantizer.md R192, R193). -/
theorem getElem?_mixLevel_realArith (sn : Snapshot) {xs : List ℝ} {n : ℕ} {m : ℝ} (hm : xs[n]? = some m) :
    (mixLevel realArith sn xs)[n]? = some ((if sn.config.getLsbD 1 then (levelOf sn.params : ℝ) else 1) * m) := by
  unfold mixLevel dbInMixer
  split
  · rw [List.getElem?_map, hm]; rfl
  · rw [hm, one_mul]

/-- The exact render's sample from the EQ's: distortion, envelope and level in turn (45_mixer_quantizer.md R198). -/
theorem getElem?_referencePath {fs n : ℕ} {sn : Snapshot} {e : ℝ} (hn : n < renderLength fs sn.dur)
    (he : (spectralEq realArith sn.params.eqGain (tone realArith fs sn))[n]? = some e) :
    (referencePath fs sn)[n]? = some ((if sn.config.getLsbD 1 then (levelOf sn.params : ℝ) else 1) *
      (((envelope fs (renderLength fs sn.dur) sn).getD n 0 : ℚ) : ℝ) *
      if sn.params.distortion = 0 then e else Real.tanh ((1 + 10 * ((sn.params.distortion : ℝ) / 1000000)) * e)) := by
  have distorted := getElem?_distort_realArith sn.params.distortion he
  have shaped := getElem?_applyEnvelope_realArith (hn.trans_eq (length_envelope fs _ sn).symm) distorted
  rw [mul_assoc]
  exact getElem?_mixLevel_realArith sn shaped

/-- Settles O44: the lengths and the record are the stages' own, and the exact sample follows the stages in order. -/
theorem renderKeepsItsLength : Obligations.RenderKeepsItsLength := by
  intro c v sn
  refine ⟨length_envelope _ _ sn, length_renderPairs c sn, rfl, rfl, rfl, fun _ _ => getElem?_renderPairs,
    fun _ n hn => ?_⟩
  have equalised : (spectralEq realArith sn.params.eqGain (tone realArith c.sampleRate sn))[n]? =
      some ((spectralEq realArith sn.params.eqGain (tone realArith c.sampleRate sn)).getD n 0) := by
    have inside : n < renderLength c.sampleRate sn.dur := hn
    simp [List.getD_eq_getElem?_getD, inside]
  have sample := getElem?_referencePath hn equalised
  rw [tone_realArith] at sample
  exact sample

end Sys2Proof.Machine
end

section
/-! PROOFS. The bands of the EQ partition its bins, the gained spectrum of a real buffer is Hermitian, and so the EQ's
output is real (42_spectral_eq.md R151 to R157). -/

namespace Sys2Proof.Machine
open Sys2Proof

theorem bandOf_eq_min {kk : ℕ} (h : 2 ≤ kk) (b k : ℕ) : bandOf b kk k = min (b - 1) (k * b / (kk - 1)) :=
  if_neg (by omega)

/-- The edges of band `j`, in integers: the last band has a lower edge only (42_spectral_eq.md R153). -/
theorem bandOf_eq_iff {b kk j : ℕ} (hkk : 2 ≤ kk) (hj : j < b) (k : ℕ) :
    bandOf b kk k = j ↔ j * (kk - 1) ≤ k * b ∧ (j < b - 1 → k * b < (j + 1) * (kk - 1)) := by
  have width : 0 < kk - 1 := by omega
  rw [bandOf_eq_min hkk, ← Nat.le_div_iff_mul_le width, ← Nat.div_lt_iff_lt_mul width]
  omega

/-- Settles O49: the bin's quotient lies between the band's edges. -/
theorem bandsPartitionTheBins : Obligations.BandsPartitionTheBins :=
  ⟨fun _ kk k hb hkk _ => ⟨bandOf_lt hb kk k, fun _ hj => bandOf_eq_iff hkk hj k⟩, fun _ => rfl⟩

/-- Settles O51: the model's list sum is the sum over the samples. -/
theorem forwardTransformIsTheDft : Obligations.ForwardTransformIsTheDft :=
  toComplex_forwardBin

/-- Settles O53: the inverse transform undoes the forward one, and one gain passes through both. -/
theorem uniformGainScalesTheBuffer : Obligations.UniformGainScalesTheBuffer := by
  intro b c x hb
  rw [spectralEq_replicate hb]
  simp [realArith]

/-- `Y[k]` over the reals (42_spectral_eq.md R155); `toComplex_gainedBins` ties it to the model's bins. -/
noncomputable def gainedBin (gains : List ℕ) (x : List ℝ) (k : ℕ) : ℂ :=
  (bandGain gains (bandOf gains.length (binCount x.length) k) : ℂ) * referenceBin x k

theorem conj_gainedBin (gains : List ℕ) (x : List ℝ) {k : ℕ} (hk : k ≤ x.length) :
    starRingEnd ℂ (gainedBin gains x (x.length - k)) =
      (bandGain gains (bandOf gains.length (binCount x.length) (x.length - k)) : ℂ) * referenceBin x k := by
  rw [gainedBin, map_mul, map_ratCast, conj_referenceBin x hk]

/-- `Z[k]`: the gained bins, and beyond them the conjugates of their mirror images (42_spectral_eq.md R156). -/
theorem toComplex_hermitian_gainedBins (gains : List ℕ) (x : List ℝ) {k : ℕ} (hk : k < x.length) (d : Cx ℝ) :
    toComplex ((hermitian realArith x.length (gainedBins realArith gains x)).getD k d) =
      if k < binCount x.length then gainedBin gains x k else starRingEnd ℂ (gainedBin gains x (x.length - k)) := by
  rw [toComplex_hermitian _ _ hk, length_gainedBins]
  split
  · exact toComplex_gainedBins gains x ‹_› _
  · have mirrored : x.length - k < binCount x.length := by unfold binCount at *; omega
    rw [toComplex_gainedBins gains x mirrored, gainedBin]

/-- Each bin of the Hermitian extension is the transform's own, scaled by a gain that a bin shares with its mirror
image. -/
theorem toComplex_hermitian_eq_gain_mul (gains : List ℕ) (x : List ℝ) {k : ℕ} (hk : k < x.length) (d : Cx ℝ) :
    toComplex ((hermitian realArith x.length (gainedBins realArith gains x)).getD k d) =
      (bandGain gains (bandOf gains.length (binCount x.length) (min k (x.length - k))) : ℂ) * referenceBin x k := by
  rw [toComplex_hermitian_gainedBins gains x hk]
  split
  · have own : min k (x.length - k) = k := by unfold binCount at *; omega
    rw [own, gainedBin]
  · have mirror : min k (x.length - k) = x.length - k := by unfold binCount at *; omega
    rw [mirror, conj_gainedBin gains x hk.le]

theorem conj_exp_mirror {N k : ℕ} (hN : 0 < N) (hk : k ≤ N) (n : ℕ) :
    starRingEnd ℂ (Complex.exp (2 * Real.pi * Complex.I * ((N - k : ℕ) : ℂ) * (n : ℂ) / (N : ℂ))) =
      Complex.exp (2 * Real.pi * Complex.I * (k : ℂ) * (n : ℂ) / (N : ℂ)) := by
  have hN' : (N : ℂ) ≠ 0 := by exact_mod_cast hN.ne'
  rw [← Complex.exp_conj]
  refine Complex.exp_eq_exp_iff_exists_int.mpr ⟨-n, ?_⟩
  simp only [map_div₀, map_mul, map_natCast, map_ofNat, Complex.conj_I, Complex.conj_ofReal]
  rw [Nat.cast_sub hk]
  push_cast
  field_simp
  ring

/-- A sum whose terms are the conjugates of their mirror images is real, when its unpaired first term is. -/
theorem im_sum_range_of_mirror {N : ℕ} {t : ℕ → ℂ} (mirror : ∀ k ≤ N, starRingEnd ℂ (t (N - k)) = t k)
    (first : (t 0).im = 0) : (∑ k ∈ Finset.range N, t k).im = 0 := by
  have flipped (k : ℕ) (hk : k ≤ N) : (t (N - k)).im = -(t k).im := by rw [← mirror k hk, Complex.conj_im, neg_neg]
  have reflected := Finset.sum_range_reflect (fun k => (t k).im) (N + 1)
  have negated : ∑ k ∈ Finset.range (N + 1), (t (N + 1 - 1 - k)).im = -∑ k ∈ Finset.range (N + 1), (t k).im := by
    rw [← Finset.sum_neg_distrib]
    exact Finset.sum_congr rfl fun k hk => flipped k (Nat.le_of_lt_succ (Finset.mem_range.mp hk))
  have last : (t N).im = 0 := by simpa [first] using flipped 0 N.zero_le
  rw [negated, Finset.sum_range_succ, last] at reflected
  rw [Complex.im_sum]
  linarith

theorem im_referenceBin_zero (x : List ℝ) : (referenceBin x 0).im = 0 := by
  simp [referenceBin]

/-- The inverse transform of the gained spectrum's Hermitian extension is real (42_spectral_eq.md R156). -/
theorem im_inverseSample_hermitian (gains : List ℕ) {x : List ℝ} (hx : 0 < x.length) (n : ℕ) :
    (toComplex (inverseSample realArith (hermitian realArith x.length (gainedBins realArith gains x)) n)).im = 0 := by
  rw [toComplex_inverseSample _ _ ⟨0, 0⟩, length_hermitian,
    Finset.sum_congr rfl fun k hk => by rw [toComplex_hermitian_eq_gain_mul gains x (Finset.mem_range.mp hk)]]
  rw [one_div, ← Complex.ofReal_natCast, ← Complex.ofReal_inv, Complex.im_ofReal_mul, Complex.ofReal_natCast]
  refine mul_eq_zero_of_right _ (im_sum_range_of_mirror (fun k hk => ?_) ?_)
  · rw [map_mul, map_mul, map_ratCast, conj_referenceBin x hk, conj_exp_mirror hx hk, Nat.sub_sub_self hk, min_comm]
  · simp [im_referenceBin_zero]

/-- The EQ's sample is the whole complex sample of the inverse transform. -/
theorem ofReal_spectralEq (gains : List ℕ) (x : List ℝ) {n : ℕ} (hn : n < x.length) :
    (((spectralEq realArith gains x).getD n 0 : ℝ) : ℂ) =
      toComplex (inverseSample realArith (hermitian realArith x.length (gainedBins realArith gains x)) n) := by
  have real_part : (spectralEq realArith gains x).getD n 0 =
      (inverseSample realArith (hermitian realArith x.length (gainedBins realArith gains x)) n).re := by
    simp [spectralEq, List.getD_eq_getElem?_getD, hn]
  rw [real_part]
  exact Complex.ext rfl (im_inverseSample_hermitian gains (Nat.zero_lt_of_lt hn) n).symm

/-- `Y[k]` with the band's gain written as a complex quotient. -/
theorem gainedBin_eq (gains : List ℕ) (x : List ℝ) (k : ℕ) : gainedBin gains x k =
    ((gains.getD (bandOf gains.length (x.length / 2 + 1) k) 0 : ℕ) : ℂ) / 1000000 * referenceBin x k := by
  simp [gainedBin, bandGain, binCount]

/-- Settles O52: the extension's bins pair up as conjugates, so their inverse transform is real and the EQ's real part
is all of it. -/
theorem eqOutputIsReal : Obligations.EqOutputIsReal := by
  intro gains x n hn
  simp only [← gainedBin_eq]
  have real := im_inverseSample_hermitian gains (Nat.zero_lt_of_lt hn) n
  refine ⟨fun k hk => toComplex_gainedBins gains x hk _, real, ?_⟩
  rw [ofReal_spectralEq gains x hn, toComplex_inverseSample _ _ ⟨0, 0⟩, length_hermitian]
  congr 1
  refine Finset.sum_congr rfl fun k hk => ?_
  rw [toComplex_hermitian_gainedBins gains x (Finset.mem_range.mp hk), binCount]

end Sys2Proof.Machine
end

section
/-! PROOFS. The distortion stage: the identity at amount 0, tanh of the gained sample at any other amount (43_distortion.md
R166 to R168). -/

namespace Sys2Proof.Machine
open Sys2Proof

@[simp] theorem distort_zero {α : Type} (A : Arith α) (e : List α) : distort A 0 e = e := if_pos rfl

theorem distort_of_pos {α : Type} (A : Arith α) {amount : ℕ} (h : 0 < amount) (e : List α) :
    distort A amount e = e.map fun v => A.tanh (A.scale (distortionGain amount) v) := if_neg h.ne'

/-- The gain of R166 over the reals. -/
theorem cast_distortionGain (amount : ℕ) : (distortionGain amount : ℝ) = 1 + 10 * ((amount : ℝ) / 1000000) := by
  simp [distortionGain]

/-- The exact stage at an amount above 0 (43_distortion.md R166, R167). -/
theorem distort_realArith_of_pos {amount : ℕ} (h : 0 < amount) (e : List ℝ) :
    distort realArith amount e = e.map fun v => Real.tanh ((1 + 10 * ((amount : ℝ) / 1000000)) * v) := by
  rw [distort_of_pos realArith h, ← cast_distortionGain]
  rfl

/-- Settles O54: above amount 0 every output sample is a tanh, which never reaches -1 or 1. -/
theorem distortionBoundsOrPassesThrough : Obligations.DistortionBoundsOrPassesThrough := by
  refine ⟨fun _ => distort_zero, fun amount e positive => ⟨distort_realArith_of_pos positive e, fun d hd => ?_⟩⟩
  rw [distort_realArith_of_pos positive] at hd
  obtain ⟨v, -, rfl⟩ := List.mem_map.mp hd
  exact ⟨Real.neg_one_lt_tanh _, Real.tanh_lt_one _⟩

end Sys2Proof.Machine
end

section
/-! PROOFS. The envelope shaper: how many samples the ramps take, the linear envelope segment by segment, and the squared
variant as the squares of the linear one (44_envelope.md R171 to R178). -/

namespace Sys2Proof.Machine
open Sys2Proof

/-! The ramps fit the note -/

theorem sum_div_le_div_sum (x y z q : ℕ) : x / q + y / q + z / q ≤ (x + y + z) / q :=
  (Nat.add_le_add_right Nat.div_add_div_le_add_div _).trans Nat.div_add_div_le_add_div

/-- Without normalisation the ramps take at most the samples of the three times together (44_envelope.md R176). -/
theorem plainCounts_sum_le (fs a d r : ℕ) :
    (plainCounts fs a d r).a + (plainCounts fs a d r).d + (plainCounts fs a d r).r ≤ (a + d + r) * fs / 1000000 := by
  rw [add_mul, add_mul]
  exact sum_div_le_div_sum (a * fs) (d * fs) (r * fs) 1000000

/-- With normalisation the ramps take at most 0.99 of the duration's samples (44_envelope.md R176). -/
theorem normalisedCounts_sum_le (fs dur : ℕ) {a d r : ℕ} (h : 0 < a + d + r) :
    (normalisedCounts fs dur a d r).a + (normalisedCounts fs dur a d r).d + (normalisedCounts fs dur a d r).r ≤
      99 * (dur * fs) / (100 * 1000000) :=
  calc _ ≤ (a * 99 * dur * fs + d * 99 * dur * fs + r * 99 * dur * fs) / (100 * (a + d + r) * 1000000) :=
        sum_div_le_div_sum _ _ _ _
    _ = (a + d + r) * (99 * (dur * fs)) / ((a + d + r) * (100 * 1000000)) := by ring_nf
    _ = 99 * (dur * fs) / (100 * 1000000) := Nat.mul_div_mul_left _ _ h

theorem linearCounts_sum_le (fs dur : ℕ) {a d r : ℕ} (h : 0 < a + d + r) :
    (linearCounts fs dur a d r).a + (linearCounts fs dur a d r).d + (linearCounts fs dur a d r).r ≤
      dur * fs / 1000000 := by
  unfold linearCounts
  split
  · have normalised := normalisedCounts_sum_le fs dur h
    omega
  · next short =>
    exact (plainCounts_sum_le fs a d r).trans (Nat.div_le_div_right (Nat.mul_le_mul_right fs (not_le.mp short).le))

/-! The samples of a ramp -/

/-- The spread samples of a ramp of any length but one (44_envelope.md R171). -/
theorem linspace_of_ne_one (a b : ℚ) {n : ℕ} (h : n ≠ 1) :
    linspace a b n = (List.range n).map fun i : ℕ => a + (b - a) * (i : ℚ) / ((n : ℚ) - 1) := by
  simp [linspace, h, List.map_eq_flatMap, List.flatMap_assoc]

@[simp] theorem linspace_one (a b : ℚ) : linspace a b 1 = [a] := if_pos rfl

@[simp] theorem length_linspace (a b : ℚ) (n : ℕ) : (linspace a b n).length = n := by
  by_cases one : n = 1
  · rw [one, linspace_one, List.length_singleton]
  · rw [linspace_of_ne_one a b one, List.length_map, List.length_range]

theorem getElem?_linspace_zero (a b : ℚ) {n : ℕ} (h : 1 ≤ n) : (linspace a b n)[0]? = some a := by
  by_cases one : n = 1
  · rw [one, linspace_one, List.getElem?_cons_zero]
  · have nonempty : 0 < n := h
    simp [linspace_of_ne_one a b one, nonempty]

theorem getElem?_linspace_last (a b : ℚ) {n : ℕ} (h : 2 ≤ n) : (linspace a b n)[n - 1]? = some b := by
  have several : n ≠ 1 := by omega
  have inside : n - 1 < n := by omega
  have steps : (n : ℚ) - 1 ≠ 0 := sub_ne_zero.mpr (by exact_mod_cast several)
  simp [linspace_of_ne_one a b several, inside, Nat.cast_sub (one_le_two.trans h), mul_div_cancel_right₀ _ steps]

/-! The linear envelope where its ramps fit -/

/-- `fit` leaves a list of the right length alone (44_envelope.md R171). -/
theorem fit_of_length_eq {xs : List ℚ} {n : ℕ} (h : xs.length = n) : fit xs n = xs := by
  simp [fit, ← h]

section
variable {n : ℕ} {c : RampCounts} (h : c.a + c.d + c.r ≤ n) (s : ℚ)
include h

/-- Ramps that fit leave `fit` nothing to do (44_envelope.md R175, R176). -/
theorem linearShape_of_fits : linearShape n c s =
    linspace 0 1 c.a ++ linspace 1 s c.d ++ List.replicate (n - c.a - c.d - c.r) s ++ linspace s 0 c.r := by
  refine fit_of_length_eq ?_
  simp only [List.length_append, length_linspace, constant, List.length_replicate, sustainCount]
  omega

theorem getElem?_linearShape_attack {k : ℕ} (hk : k < c.a) : (linearShape n c s)[k]? = (linspace 0 1 c.a)[k]? := by
  rw [linearShape_of_fits h, List.append_assoc, List.append_assoc, List.getElem?_append_left (by simpa using hk)]

theorem getElem?_linearShape_plateau {k : ℕ} (start : c.a + c.d ≤ k) (stop : k < n - c.r) :
    (linearShape n c s)[k]? = some s := by
  have before : (linspace 0 1 c.a ++ linspace 1 s c.d).length = c.a + c.d := by simp
  rw [linearShape_of_fits h, List.append_assoc, List.getElem?_append_right (by omega), before,
    List.getElem?_append_left (by rw [List.length_replicate]; omega), List.getElem?_replicate_of_lt (by omega)]

theorem getElem?_linearShape_last (hr : 1 ≤ c.r) : (linearShape n c s)[n - 1]? = (linspace s 0 c.r)[c.r - 1]? := by
  have before : (linspace 0 1 c.a ++ linspace 1 s c.d ++ List.replicate (n - c.a - c.d - c.r) s).length = n - c.r := by
    simp only [List.length_append, length_linspace, List.length_replicate]
    omega
  have index : n - 1 - (n - c.r) = c.r - 1 := by omega
  rw [linearShape_of_fits h, List.getElem?_append_right (by omega), before, index]

end

/-- Settles O46: both ways of counting stay within the note, so the segments already have its length. -/
theorem linearRampsFitTheNote : Obligations.LinearRampsFitTheNote := by
  intro fs dur a d r s positive
  have fits := linearCounts_sum_le fs dur positive
  exact ⟨fits, linearShape_of_fits fits s⟩

/-- Settles O47: each point is the first or the last sample of a ramp, or lies on the plateau. -/
theorem linearEnvelopeShape : Obligations.LinearEnvelopeShape := by
  intro n c s h
  refine ⟨fun ha => ?_, fun ha => ?_, fun _ => getElem?_linearShape_plateau h s, fun hr => ?_, fun hr => ?_⟩
  · rw [getElem?_linearShape_attack h s ha, getElem?_linspace_zero 0 1 ha]
  · rw [getElem?_linearShape_attack h s (by omega), getElem?_linspace_last 0 1 ha]
  · rw [getElem?_linearShape_last h s (by omega), getElem?_linspace_last s 0 hr]
  · rw [getElem?_linearShape_last h s hr.ge, hr, getElem?_linspace_zero s 0 le_rfl]

/-! The two variants -/

theorem envelope_of_squared (fs n : ℕ) {sn : Snapshot} (h : sn.config.getLsbD 0 = true) : envelope fs n sn =
    squaredEnvelope fs n sn.params.attack sn.params.decay sn.params.release ((sn.params.sustain : ℚ) / 1000000) :=
  if_pos h

theorem envelope_of_linear (fs n : ℕ) {sn : Snapshot} (h : sn.config.getLsbD 0 = false) : envelope fs n sn =
    linearEnvelope fs sn.dur n sn.params.attack sn.params.decay sn.params.release ((sn.params.sustain : ℚ) / 1000000) :=
  if_neg (ne_true_of_eq_false h)

/-- The clamp of R173 changes no legal time. -/
theorem clampTime_of_legal {t : ℕ} (h : 1000 ≤ t ∧ t ≤ 900000) : clampTime t = t := clampRaw_of_mem h.1 h.2

theorem linearEnvelope_of_legal (fs dur n : ℕ) {a d r : ℕ} (s : ℚ) (ha : 1000 ≤ a ∧ a ≤ 900000)
    (hd : 1000 ≤ d ∧ d ≤ 900000) (hr : 1000 ≤ r ∧ r ≤ 900000) :
    linearEnvelope fs dur n a d r s = linearShape n (linearCounts fs dur a d r) s := by
  rw [linearEnvelope, clampTime_of_legal ha, clampTime_of_legal hd, clampTime_of_legal hr]

@[simp] theorem squares_append (xs ys : List ℚ) : squares (xs ++ ys) = squares xs ++ squares ys := List.map_append

@[simp] theorem squares_constant (q : ℚ) (n : ℕ) : squares (constant q n) = constant (q * q) n := List.map_replicate

/-- Squaring keeps what `fit` cuts, and the zeros it pads with. -/
theorem squares_fit (xs : List ℚ) (n : ℕ) : squares (fit xs n) = fit (squares xs) n := by
  simp [fit, squares]

/-- The squared variant's samples are the squares of the linear shape's with the same counts (44_envelope.md R178). -/
theorem squaredShape_eq_squares (n : ℕ) (c : RampCounts) (s : ℚ) :
    squaredShape n c s = squares (linearShape n c s) := by
  simp [squaredShape, linearShape, squares_fit]

/-- Settles O48: CONFIG's bit 0 decides the variant, the clamp leaves legal times alone, and squaring passes through every
segment. -/
theorem envelopeLiesInUnitRange : Obligations.EnvelopeLiesInUnitRange := by
  refine ⟨fun fs n sn set => envelope_of_squared fs n set, fun fs n sn clear ha hd hr => ?_,
    fun fs n sn hs => mem_envelope_inUnit hs fs n, squaredShape_eq_squares⟩
  rw [envelope_of_linear fs n clear, linearEnvelope_of_legal fs sn.dur n _ ha hd hr, linearCounts]
  split
  · next reached => simp only [normalisedCounts, ge_iff_le, if_pos reached]
  · next short => simp only [plainCounts, ge_iff_le, if_neg short]

end Sys2Proof.Machine
end

section
/-! PROOFS. Truncation within TOL (45_mixer_quantizer.md R194 to R197; log entries 10 and 11): which integers R197 admits, that
the quantizer and the channels give one of them, and that a channel stays within the sample it is taken of. -/

namespace Sys2Proof.Machine
open Sys2Proof

/-- Truncation takes every integer between two of its values: an integer outside the interval is an end point's own. -/
theorem exists_truncReal_eq {lo hi : ℝ} (h : lo ≤ hi) {q : ℤ} (hlo : truncReal lo ≤ q) (hhi : q ≤ truncReal hi) :
    ∃ y, lo ≤ y ∧ y ≤ hi ∧ q = truncReal y := by
  have self := truncReal_intCast q
  rcases le_total (q : ℝ) lo with below | above
  · exact ⟨lo, le_rfl, h, le_antisymm (self.symm.le.trans (truncReal_mono below)) hlo⟩
  · rcases le_total (q : ℝ) hi with inside | beyond
    · exact ⟨q, above, inside, self.symm⟩
    · exact ⟨hi, h, le_rfl, le_antisymm hhi ((truncReal_mono beyond).trans self.le)⟩

theorem truncReal_of_abs_lt_one {x : ℝ} (h : |x| < 1) : truncReal x = 0 := by
  obtain ⟨above, below⟩ := abs_lt.mp h
  unfold truncReal
  split
  · next nonneg => exact Int.floor_eq_zero_iff.mpr ⟨nonneg, below⟩
  · next negative => exact Int.ceil_eq_zero_iff.mpr ⟨above, (not_le.mp negative).le⟩

/-! The two bounds of an interval -/

theorem truncLo_eq_truncReal (tol : ℚ) (a : Iv) : truncLo tol a = truncReal (a.lo - tol * |(a.lo : ℝ)|) := by
  rw [truncLo, truncRat_eq_truncReal, ratAbs_eq]
  push_cast
  rfl

theorem truncHi_eq_truncReal (tol : ℚ) (a : Iv) : truncHi tol a = truncReal (a.hi + tol * |(a.hi : ℝ)|) := by
  rw [truncHi, truncRat_eq_truncReal, ratAbs_eq]
  push_cast
  rfl

/-- What TOL reaches of two values differs by no more than they do. -/
theorem mul_abs_sub_mul_abs_le {t : ℝ} (h0 : 0 ≤ t) (h1 : t ≤ 1) (x y : ℝ) : t * |x| - t * |y| ≤ |x - y| :=
  calc t * |x| - t * |y| = t * (|x| - |y|) := (mul_sub _ _ _).symm
    _ ≤ t * |x - y| := mul_le_mul_of_nonneg_left (abs_sub_abs_le_abs_sub x y) h0
    _ ≤ |x - y| := mul_le_of_le_one_left (abs_nonneg _) h1

/-- The integers R197 admits lie between the bounds of an interval that contains the exact product. -/
theorem Admitted.between {tol : ℚ} (h0 : 0 ≤ tol) (h1 : tol ≤ 1) {a : Iv} {x : ℝ} (hx : Encloses a x) {q : ℤ}
    (h : Admitted tol x q) : truncLo tol a ≤ q ∧ q ≤ truncHi tol a := by
  obtain ⟨y, near, rfl⟩ := h
  have t0 : (0 : ℝ) ≤ tol := by exact_mod_cast h0
  have t1 : (tol : ℝ) ≤ 1 := by exact_mod_cast h1
  obtain ⟨n1, n2⟩ := abs_le.mp near
  have lo := mul_abs_sub_mul_abs_le t0 t1 x a.lo
  have hi := mul_abs_sub_mul_abs_le t0 t1 x a.hi
  rw [abs_of_nonneg (sub_nonneg.mpr hx.1)] at lo
  rw [abs_of_nonpos (sub_nonpos.mpr hx.2)] at hi
  rw [truncLo_eq_truncReal, truncHi_eq_truncReal]
  exact ⟨truncReal_mono (by linarith), truncReal_mono (by linarith)⟩

/-- Between the bounds of one exact product every integer is admitted (45_mixer_quantizer.md R197). -/
theorem admitted_of_between {tol : ℚ} (h0 : 0 ≤ tol) {p : ℚ} {q : ℤ} (hlo : truncLo tol (ivExact p) ≤ q)
    (hhi : q ≤ truncHi tol (ivExact p)) : Admitted tol (p : ℝ) q := by
  have reach : (0 : ℝ) ≤ tol * |(p : ℝ)| := mul_nonneg (by exact_mod_cast h0) (abs_nonneg _)
  rw [truncLo_eq_truncReal] at hlo
  rw [truncHi_eq_truncReal] at hhi
  obtain ⟨y, above, below, eq⟩ := exists_truncReal_eq (by simp only [ivExact]; linarith) hlo hhi
  simp only [ivExact] at above below
  exact ⟨y, abs_le.mpr ⟨by linarith, by linarith⟩, eq⟩

/-! What is admitted -/

/-- The exact truncation is admitted. -/
theorem admitted_truncReal {tol : ℚ} (h0 : 0 ≤ tol) (x : ℝ) : Admitted tol x (truncReal x) :=
  ⟨x, by rw [sub_self, abs_zero]; exact mul_nonneg (by exact_mod_cast h0) (abs_nonneg x), rfl⟩

/-- The middle of an interval no wider than TOL / 2 truncates to an admitted integer: near 0 it truncates to 0 as the
exact product does, and elsewhere it lies within TOL of it. -/
theorem admitted_truncNear {tol : ℚ} (h0 : 0 ≤ tol) (h1 : tol ≤ 1 / 2) {a : Iv} {x : ℝ}
    (h : EnclosesWithin (tol / 2) a x) : Admitted tol x (truncNear a) := by
  obtain ⟨lo, hi⟩ := h.endpoints
  have t0 : (0 : ℝ) ≤ tol := by exact_mod_cast h0
  have t1 : (tol : ℝ) ≤ 1 / 2 := by simpa using (Rat.cast_le (K := ℝ)).mpr h1
  have middle : truncNear a = truncReal ((a.lo + a.hi) / 2) := by
    rw [truncNear, truncRat_eq_truncReal]; push_cast; rfl
  have near : |((a.lo + a.hi) / 2 : ℝ) - x| ≤ tol / 4 := by
    push_cast at lo hi
    exact abs_le.mpr ⟨by linarith [h.1.2], by linarith [h.1.1]⟩
  rw [middle]
  rcases le_or_gt (1 / 4) |x| with large | small
  · exact ⟨_, near.trans (by nlinarith), rfl⟩
  · have m := abs_sub_abs_le_abs_sub ((a.lo + a.hi) / 2 : ℝ) x
    rw [truncReal_of_abs_lt_one (by linarith), ← truncReal_of_abs_lt_one (by linarith : |x| < 1)]
    exact admitted_truncReal h0 x

/-- Of a narrow enclosure the step takes an admitted integer, whatever the free value (45_mixer_quantizer.md R197). -/
theorem admitted_truncateProduct {tol : ℚ} (h0 : 0 ≤ tol) (h1 : tol ≤ 1 / 2) (site : RoundingSite) {a : Iv} {x : ℝ}
    (h : EnclosesWithin (tol / 2) a x) : Admitted tol x (truncateProduct tol site (Admitted tol x) a) := by
  rcases truncateProduct_cases tol site (Admitted tol x) a with ⟨one, eq⟩ | ⟨-, admitted | eq⟩
  · obtain ⟨lo, hi⟩ := truncReal_between h0 h.1
    rw [eq, le_antisymm lo (hi.trans one)]
    exact admitted_truncReal h0 x
  · exact admitted
  · rw [eq]
    exact admitted_truncNear h0 h1 h

/-- A legal machine's `q[n]` is the clip of an admitted integer (45_mixer_quantizer.md R194, R197). -/
theorem quantize_admitted {c : Config} (hc : c.Legal) (sn : Snapshot) (n : ℕ) {a : Iv}
    (h : EnclosesWithin (1 / 10 ^ 15) a ((referencePath c.sampleRate sn).getD n 0)) :
    ∃ z, Admitted (tolerance c.numerics) (referenceProduct c.sampleRate sn n) z ∧ quantize c sn n a = clampPcm z := by
  obtain ⟨least, greatest⟩ := tolerance_range hc
  have scaled := ivScale_enclosesWithin (q := 32767) (c := 32767) (by norm_num [abs_of_nonneg]) h
  have product : ((32767 : ℚ) : ℝ) * (referencePath c.sampleRate sn).getD n 0 = referenceProduct c.sampleRate sn n := by
    unfold referenceProduct; push_cast; ring
  rw [product] at scaled
  exact ⟨_, admitted_truncateProduct (tolerance_nonneg _) (by linarith) (siteOf c sn .quantized n)
    (scaled.mono (by linarith)), rfl⟩

/-- A channel's integer is admitted for the exact product of its `q[n]` (45_mixer_quantizer.md R194, R197). -/
theorem channelOf_admitted (c : Config) (sn : Snapshot) (n : ℕ) (p : Product) (g : ℕ) (q : ℤ) :
    Admitted (tolerance c.numerics) ((channelProduct g q : ℚ) : ℝ) (channelOf c sn n p g q) := by
  have exactly := admitted_truncReal (tolerance_nonneg c.numerics) ((channelProduct g q : ℚ) : ℝ)
  unfold channelOf channel
  rcases truncateProduct_cases (tolerance c.numerics) (siteOf c sn p n)
    (ChannelAdmitted (tolerance c.numerics) (referenceProduct c.sampleRate sn n) g q)
    (ivExact (channelProduct g q)) with ⟨one, eq⟩ | ⟨-, admitted | eq⟩
  · rwa [eq, truncLo_ivExact (tolerance_nonneg _) one]
  · exact admitted.1
  · rwa [eq, truncNear_ivExact]

/-- Settles O59: truncation is monotone and takes every integer between two of its values, and the step's intervals are
narrow enough for their middle to be admitted. -/
theorem quantizerAdmitsEveryAllowedInteger : Obligations.QuantizerAdmitsEveryAllowedInteger := by
  refine ⟨fun tol a x site h0 h1 hx => ⟨fun q admitted => admitted.between h0 (by linarith) hx, admitted_truncReal h0 x,
    ?_, fun narrow => admitted_truncateProduct h0 h1 site ⟨hx, narrow⟩⟩,
    fun tol p q h0 _ => admitted_of_between h0, ?_⟩
  · rintro reach q ⟨y, near, rfl⟩
    exact abs_truncReal_sub_le (by linarith)
  · intro c sn n a hc hx narrow hl hr
    have beside := abs_quantize_sub_le hc sn n ⟨hx, narrow⟩
    exact ⟨quantize_admitted hc sn n ⟨hx, narrow⟩, beside,
      channelOf_admitted .., abs_channelOf_sub_le c sn n .left hl beside,
      channelOf_admitted .., abs_channelOf_sub_le c sn n .right hr beside⟩

/-- Settles O45: a channel lies between 0 and the clipped sample. -/
theorem samplesStayInSixteenBits : Obligations.SamplesStayInSixteenBits := by
  refine ⟨fun c v sn hc hl hr => render_legal hc hl hr v, fun tol site x g q h0 ht hg q1 q2 => ?_⟩
  simpa using Set.abs_sub_left_of_mem_uIcc (channel_mem_uIcc h0 ht site x hg ⟨q1, q2⟩)

end Sys2Proof.Machine
end

section
/-! PROOFS. The level: in dB and back, and on either side of CONFIG's switch (45_mixer_quantizer.md R190 to R193). -/

namespace Sys2Proof.Machine
open Sys2Proof

theorem levelOf_nonneg (p : VoiceParams) : 0 ≤ levelOf p := by
  unfold levelOf; positivity

/-- A level in dB converts back to the level, silence among them (45_mixer_quantizer.md R190). -/
theorem dbToLinear_levelDb {lv : ℝ} (h : 0 ≤ lv) : dbToLinear (levelDb lv) = lv := by
  unfold levelDb
  split
  · next silent => rw [silent]; rfl
  · next sounding =>
    have loud : 0 < lv := lt_of_le_of_ne h (Ne.symm sounding)
    calc dbToLinear ((20 * Real.logb 10 lv : ℝ) : WithBot ℝ) = (10 : ℝ) ^ (20 * Real.logb 10 lv / 20) := rfl
      _ = (10 : ℝ) ^ Real.logb 10 lv := by rw [mul_div_cancel_left₀ _ (by norm_num)]
      _ = lv := Real.rpow_logb (by norm_num) (by norm_num) loud

/-- The delivered level is within TOL of the exact one (00_scope.md R12; log entry 25). -/
theorem abs_roundLevel_sub_le {tol : ℚ} (h0 : 0 ≤ tol) (site : RoundingSite) {lv : ℚ} (h : 0 ≤ lv) :
    |roundLevel tol site lv - lv| ≤ tol * lv := by
  rcases roundLevel_cases tol site lv with admitted | eq
  · unfold LevelAdmitted at admitted
    rwa [abs_of_nonneg h] at admitted
  · rw [eq, sub_self, abs_zero]
    exact mul_nonneg h0 h

section
variable {sn : Snapshot}

theorem mixLevel_of_clear {α : Type} (A : Arith α) (h : sn.config.getLsbD 1 = false) (m : List α) :
    mixLevel A sn m = m :=
  if_neg (ne_true_of_eq_false h)

theorem mixLevel_of_set {α : Type} (A : Arith α) (h : sn.config.getLsbD 1 = true) (m : List α) :
    mixLevel A sn m = m.map (A.scale (levelOf sn.params)) :=
  if_pos h

theorem deliveredLevel_of_clear (c : Config) (h : sn.config.getLsbD 1 = false) : deliveredLevel c sn =
    roundLevel (tolerance c.numerics) (siteOf c sn .level 0) (levelOf sn.params) :=
  if_neg (ne_true_of_eq_false h)

theorem deliveredLevel_of_set (c : Config) (h : sn.config.getLsbD 1 = true) : deliveredLevel c sn = 1 := if_pos h

end

/-- Settles O55: the conversions are inverse on levels, and CONFIG's bit 1 gives the level to the mixer or to the sink. -/
theorem levelDbConvertsBack : Obligations.LevelDbConvertsBack := by
  refine ⟨fun p => ⟨dbToLinear_levelDb (by exact_mod_cast levelOf_nonneg p), by unfold levelOf; push_cast; rfl⟩,
    fun c sn m => ⟨fun clear => ⟨mixLevel_of_clear _ clear m, ?_⟩,
      fun set => ⟨mixLevel_of_set _ set m, deliveredLevel_of_set c set⟩⟩⟩
  rw [deliveredLevel_of_clear c clear]
  exact abs_roundLevel_sub_le (tolerance_nonneg _) _ (levelOf_nonneg _)

end Sys2Proof.Machine
end

section
/-! PROOFS. The completion of a busy voice (45_mixer_quantizer.md R200, 60_exceptions.md R248): the voice freed, and the
record, the fault or neither. -/

namespace Sys2Proof.Machine
open Sys2Proof

/-- What a failed render leaves, in the spec's numbers (60_exceptions.md R241, R248). -/
theorem failRender_eq (v : Nat) (sn : Snapshot) (s : State) : failRender v sn s = { s with
    voices := (writeSnap v none s).voices
    faultCnt := BitVec.ofNat 32 (min (s.faultCnt.toNat + 1) (2 ^ 32 - 1))
    err := s.err ||| 32
    lastErr := sn.step.setWidth 16 ++ BitVec.ofNat 8 v ++ (6 : Byte) } := by
  rw [← saturatingSucc_eq_min, BitVec.setWidth_eq_extractLsb' (by decide)]
  rfl

/-- What a finished render leaves (45_mixer_quantizer.md R200, R201). -/
theorem finishRender_eq (v : Nat) (sn : Snapshot) (s : State) : finishRender v sn s = { s with
    voices := (writeSnap v none s).voices
    delivered := if sn.epoch = s.epoch then s.delivered ++ [render s.cfg v sn] else s.delivered } := by
  unfold finishRender
  split <;> rfl

@[simp] theorem renderStep_cfg (v : Nat) (s : State) : (renderStep v s).cfg = s.cfg := by rw [renderStep_frame]

section
variable {s : State} {v : Nat} {sn : Snapshot}

theorem renderStep_of_busy (snap : (s.voice v).snap = some sn) : renderStep v s =
    { (if renderFailed s then failRender v sn s else finishRender v sn s) with draws := s.draws + 1 } := by
  unfold renderStep
  rw [snap]

/-- A completion drops its voice's snapshot, whatever becomes of the render (45_mixer_quantizer.md R200). -/
theorem renderStep_voices_of_busy (snap : (s.voice v).snap = some sn) :
    (renderStep v s).voices = (writeSnap v none s).voices := by
  rw [renderStep_of_busy snap]
  split
  · rw [failRender_eq]
  · rw [finishRender_eq]

end

/-- Only a machine whose renders may fail has a failed one (45_mixer_quantizer.md R203). -/
theorem renderMayFail_of_renderFailed {s : State} (h : renderFailed s = true) : s.cfg.renderMayFail = true :=
  ((Bool.and_eq_true _ _).mp h).1

/-- Settles O41: a completion frees the voice whatever becomes of the render; a finished render is delivered or discarded
by its epoch, and only a machine that may fail records a fault. -/
theorem completionDeliversDiscardsOrFails : Obligations.CompletionDeliversDiscardsOrFails := by
  intro s v sn hv snap
  have voices := renderStep_voices_of_busy snap
  refine ⟨renderStep v s, rfl, ?_, fun u hu => by simp [voices, Ne.symm hu], ?_⟩
  · rw [voice_congr voices (renderStep_cfg v s) v]
    exact voice_updateVoice_same hv _
  · rw [renderStep_of_busy snap]
    split
    · next failed =>
      rw [failRender_eq]
      exact .inr ⟨renderMayFail_of_renderFailed failed, rfl⟩
    · rw [finishRender_eq]
      exact .inl ⟨rfl, rfl⟩

end Sys2Proof.Machine
end

section
/-! PROOFS. The commands that name a voice and a field, a cell or a status register (46_control_commands.md R212 to
R220, R227): what each leaves when the address exists, and when it does not. -/

namespace Sys2Proof.Machine
open Sys2Proof

/-- A missed address leaves the spec's BAD_ADDR state (60_exceptions.md R245). -/
theorem rejectAddress_eq (op v i : Byte) (s : State) : rejectAddress op v i s = badAddrState op v i s := by
  simp only [rejectAddress, respondZeroIfGet, badAddrState, ← isGetOp_iff]
  split <;> rfl

theorem namedParam_eq_some {s : State} {v p : Byte} {f : Param} (hv : v.toNat < s.cfg.numVoices)
    (hp : paramOfId s.cfg p = some f) : namedParam s v p = some f := by
  simp [namedParam, voiceExists, hv, hp]

theorem namedParam_eq_none {s : State} {v p : Byte} (h : s.cfg.numVoices ≤ v.toNat ∨ paramOfId s.cfg p = none) :
    namedParam s v p = none := by
  rwa [namedParam_eq_none_iff, ← paramOfId_eq_none_iff]

theorem cellExists_eq_false {s : State} {v i : Byte} (h : s.cfg.numVoices ≤ v.toNat ∨ 32 ≤ i.toNat) :
    cellExists s v i = false := by
  rw [← Bool.not_eq_true, cellExists_iff]
  omega

theorem exec_setp_of_named {s : State} {v p : Byte} {f : Param} (h : namedParam s v p = some f) (val : Word) :
    exec (.setp v p val) s = .next (storeParam v p f (rawOf val) s) := by
  simp [exec, execSetp, h]

theorem exec_setp_of_missing {s : State} {v p : Byte} (h : namedParam s v p = none) (val : Word) :
    exec (.setp v p val) s = .next (badAddrState 0x01 v p s) := by
  simp [exec, execSetp, h, rejectAddress_eq]

theorem exec_getp_of_named {s : State} {v p : Byte} {f : Param} (h : namedParam s v p = some f) :
    exec (.getp v p) s = .next (respond (BitVec.ofNat 32 (getParam f (s.params v.toNat))) s) := by
  simp [exec, execGetp, h]

theorem exec_getp_of_missing {s : State} {v p : Byte} (h : namedParam s v p = none) :
    exec (.getp v p) s = .next (badAddrState 0x08 v p s) := by
  simp [exec, execGetp, h, rejectAddress_eq]

theorem exec_sets_of_exists {s : State} {v i : Byte} (h : cellExists s v i = true) (b : Bool) :
    exec (.sets v i b) s = .next (writeCell v.toNat i.toNat b s) := by
  simp [exec, execSets, h]

theorem exec_sets_of_missing {s : State} {v i : Byte} (h : cellExists s v i = false) (b : Bool) :
    exec (.sets v i b) s = .next (badAddrState 0x02 v i s) := by
  simp [exec, execSets, h, rejectAddress_eq]

theorem exec_gets_of_exists {s : State} {v i : Byte} (h : cellExists s v i = true) :
    exec (.gets v i) s = .next (respond (BitVec.ofNat 32 (s.gridCell v.toNat i.toNat).toNat) s) := by
  simp [exec, execGets, h]

theorem exec_gets_of_missing {s : State} {v i : Byte} (h : cellExists s v i = false) :
    exec (.gets v i) s = .next (badAddrState 0x09 v i s) := by
  simp [exec, execGets, h, rejectAddress_eq]

theorem exec_getstat_of_listed {s : State} {i : Byte} {w : Word} (h : readStatus s i = some w) :
    exec (.getstat i) s = .next (respond w s) := by
  simp [exec, execGetstat, h]

theorem exec_getstat_of_unlisted {s : State} {i : Byte} (h : readStatus s i = none) :
    exec (.getstat i) s = .next (badAddrState 0x0A 0x00 i s) := by
  simp [exec, execGetstat, h, rejectAddress_eq]

/-- Settles O25: by whether the voice and the field exist. -/
theorem getpRespondsField : Obligations.GetpRespondsField :=
  ⟨fun _ _ _ _ hv hp => exec_getp_of_named (namedParam_eq_some hv hp),
    fun _ _ _ h => exec_getp_of_missing (namedParam_eq_none h), malformedRejected 0x08⟩

theorem ofNat_toNat_bool (b : Bool) : BitVec.ofNat 32 b.toNat = if b then 1 else 0 := by
  cases b <;> rfl

/-- Settles O26: by whether the voice and the step exist. -/
theorem getsRespondsCell : Obligations.GetsRespondsCell := by
  refine ⟨fun s v i hv hi => ?_, fun _ _ _ h => exec_gets_of_missing (cellExists_eq_false h),
    malformedRejected 0x09⟩
  rw [exec_gets_of_exists ((cellExists_iff s v i).mpr ⟨hv, hi⟩), ofNat_toNat_bool]
  rfl

/-- The overrun counter of voice `v` is status register 0x10 + `v` (10_state.md R45). -/
theorem readStatus_ovrCnt {s : State} {i : Byte} {v : Nat} (hv : v < s.cfg.numVoices) (hi : i.toNat = 0x10 + v) :
    readStatus s i = some (s.voice v).ovrCnt := by
  unfold readStatus
  split
  case h_16 => rw [hi, if_pos (by omega), Nat.add_sub_cancel_left]
  all_goals omega

/-- GSTEP's high half (10_state.md R45). -/
theorem extractLsb'_high (g : BitVec 64) : g.extractLsb' 32 32 = (g >>> 32).setWidth 32 := by
  apply BitVec.eq_of_toNat_eq
  simp

/-- Settles O27: each listed index by the lookup's row of it, the overrun counters by their range of indices. -/
theorem getstatRespondsRegister : Obligations.GetstatRespondsRegister := by
  refine ⟨fun s i w listed => exec_getstat_of_listed (?_ : readStatus s i = some w),
    fun s i h => exec_getstat_of_unlisted ((readStatus_eq_none_iff s i).mpr h), malformedRejected 0x0A⟩
  rw [BitVec.setWidth_eq_extractLsb' (by decide), ← extractLsb'_high] at listed
  rcases listed with ⟨rfl, rfl⟩ | ⟨rfl, rfl⟩ | ⟨rfl, rfl⟩ | ⟨rfl, rfl⟩ | ⟨rfl, rfl⟩ | ⟨rfl, rfl⟩ | ⟨rfl, rfl⟩ |
    ⟨rfl, rfl⟩ | ⟨rfl, rfl⟩ | ⟨rfl, rfl⟩ | ⟨rfl, rfl⟩ | ⟨rfl, rfl⟩ | ⟨rfl, rfl⟩ | ⟨rfl, rfl⟩ | ⟨rfl, rfl⟩ |
    ⟨v, hv, hi, rfl⟩
  on_goal 16 => exact readStatus_ovrCnt hv hi
  all_goals rfl

end Sys2Proof.Machine
end

section
/-! PROOFS. The control commands without an address (46_control_commands.md R210, R223 to R229). -/

namespace Sys2Proof.Machine
open Sys2Proof

/-- Settles O16: the all-zero word is NOP, and its mask is every bit but OP's. -/
theorem nopChangesNothing : Obligations.NopChangesNothing := ⟨fun _ => rfl, rfl, malformedRejected 0x00⟩

/-- Settles O21, from the clamp and its report. -/
theorem setdStoresClampedDuration : Obligations.SetdStoresClampedDuration := by
  refine ⟨fun s val => ?_, malformedRejected 0x06⟩
  have range : durationLo ≤ durationHi := by decide
  rw [exec, execSetd, reportClamp_eq _ range, clampRaw_eq_max_min _ range]
  rfl

/-- The reserved bits of a configuration word are those of R225's mask. -/
theorem configReservedZero_iff (c : Word) : configReservedZero c = true ↔ c &&& 0xFFFFFFFC = 0 := by
  unfold configReservedZero
  rw [beq_iff_eq]
  refine ⟨and_reservedBits, fun h => ?_⟩
  calc c.extractLsb' 2 30 = (c &&& 0xFFFFFFFC).extractLsb' 2 30 := by
        rw [BitVec.extractLsb'_and, show (0xFFFFFFFC : Word).extractLsb' 2 30 = BitVec.allOnes 30 from rfl,
          BitVec.and_allOnes]
    _ = 0 := by rw [h]; rfl

theorem exec_setcfg_of_zero {c : Word} (h : configReservedZero c = true) (s : State) :
    exec (.setcfg c) s = .next { s with config := c } := by
  simp [exec, execSetcfg, h]

theorem exec_setcfg_of_reserved {c : Word} (h : ¬ configReservedZero c = true) (s : State) :
    exec (.setcfg c) s = .next (raiseErr .badCmd noVoice (commandDetail 0x07 0x00) s) := by
  simp [exec, execSetcfg, h]

/-- Settles O22: by the operand's reserved bits. -/
theorem setcfgStoresConfiguration : Obligations.SetcfgStoresConfiguration :=
  ⟨fun s c zero => exec_setcfg_of_zero ((configReservedZero_iff c).mpr zero) s,
    fun s c reserved => exec_setcfg_of_reserved ((configReservedZero_iff c).not.mpr reserved) s,
    malformedRejected 0x07⟩

/-- Settles O29: the voices keep their places, each with its counter cleared. -/
theorem clrdiagClearsDiagnostics : Obligations.ClrdiagClearsDiagnostics :=
  ⟨fun s => ⟨clearDiagnostics s, rfl, rfl, List.length_map _, fun v _ => voice_clearDiagnostics s v⟩,
    malformedRejected 0x0B⟩

end Sys2Proof.Machine
end

section
/-! PROOFS. A field or a cell written, and what is read back (46_control_commands.md R212 to R219, 10_state.md R26): the
range table is the model's list of fields with their bounds, and a write is seen at its own place alone. -/

namespace Sys2Proof.Machine
open Sys2Proof

/-- Which fields a machine has: every scalar, and the EQ gains below EQ_BANDS (10_state.md R26). -/
theorem mem_allParams {c : Config} {f : Param} : f ∈ allParams c ↔ ∀ k, f = .eqGain k → k < c.eqBands := by
  cases f <;> simp [allParams]

theorem mem_allParams_of_paramOfId {c : Config} {p : Byte} {f : Param} (h : paramOfId c p = some f) :
    f ∈ allParams c :=
  mem_allParams.mpr fun _ hk => paramOfId_eqGain (hk ▸ h)

/-- An existing field's id names it (30_encoding.md R90). -/
theorem paramOfId_idOfParam {c : Config} (hc : c.eqBands ≤ 32) {f : Param} (hf : f ∈ allParams c) :
    paramOfId c (idOfParam f) = some f := by
  cases f with
  | eqGain k => exact paramOfId_eqGain_id (mem_allParams.mp hf k rfl) hc
  | _ => rfl

/-- The row of a field in the range table (10_state.md R26). -/
def rangeRow (c : Config) (f : Param) : RangeRow := ⟨idOfParam f, f, paramLo f, paramHi c f⟩

theorem rangeTable_eq (c : Config) : rangeTable c = (allParams c).map (rangeRow c) := by
  simp [rangeTable, allParams, rangeRow, idOfParam, paramLo, paramHi, stepCount]

/-- An id is unassigned exactly when it stands in no row of the range table. -/
theorem paramOfId_eq_none_iff_rangeTable {c : Config} (hc : c.eqBands ≤ 32) (p : Byte) :
    paramOfId c p = none ↔ ∀ r ∈ rangeTable c, r.id ≠ p := by
  rw [rangeTable_eq, List.forall_mem_map]
  constructor
  · rintro none f hf rfl
    exact nomatch none.symm.trans (paramOfId_idOfParam hc hf)
  · intro noRow
    rw [Option.eq_none_iff_forall_ne_some]
    intro f hp
    exact noRow f (mem_allParams_of_paramOfId hp) (idOfParam_paramOfId hp)

theorem voice_storeParam (s : State) (u : Nat) (v p : Byte) (f : Param) (raw : Int) :
    (storeParam v p f raw s).voice u =
      if u = v.toNat ∧ v.toNat < s.voices.length then
        { s.voice v.toNat with
          params := setParam f (clampRaw raw (paramLo f) (paramHi s.cfg f)) (s.params v.toNat) }
      else s.voice u := by
  have written : (storeParam v p f raw s).voices =
      (writeParam v.toNat f (clampRaw raw (paramLo f) (paramHi s.cfg f)) s).voices := storeParam_voices ..
  rw [voice_congr written (storeParam_cfg ..), writeParam, voice_updateVoice]
  rfl

/-- Another field than the stored one reads as before, in every voice. -/
theorem getParam_storeParam_other {f g : Param} (h : g ≠ f) (s : State) (u : Nat) (v p : Byte) (raw : Int) :
    getParam g ((storeParam v p f raw s).params u) = getParam g (s.params u) := by
  unfold State.params
  rw [voice_storeParam]
  split
  · next hit => rw [hit.1]; exact getParam_setParam_other h ..
  · rfl

/-- What a field reads as after one was stored in a legal state. -/
theorem getParam_storeParam {s : State} (hs : s.Inv) {v : Byte} (hv : v.toNat < s.cfg.numVoices) {f : Param}
    (hf : f ∈ allParams s.cfg) (u : Nat) (g : Param) (p : Byte) (raw : Int) :
    getParam g ((storeParam v p f raw s).params u) =
      if u = v.toNat ∧ g = f then clampRaw raw (paramLo f) (paramHi s.cfg f) else getParam g (s.params u) := by
  split
  · next hit =>
    obtain ⟨rfl, rfl⟩ := hit
    obtain ⟨-, bands, -⟩ := (voice_legal hs v.toNat).1
    obtain ⟨-, len, -⟩ := hs
    unfold State.params
    rw [voice_storeParam, if_pos ⟨rfl, len ▸ hv⟩]
    exact getParam_setParam_same g _ _ fun k hk => (mem_allParams.mp hf k hk).trans_eq bands.symm
  · next miss =>
    by_cases hg : g = f
    · have other : u ≠ v.toNat := fun hu => miss ⟨hu, hg⟩
      simp [State.params, voice_storeParam, other]
    · exact getParam_storeParam_other hg ..

/-- A store changes the voices and the error record alone (46_control_commands.md R212). -/
theorem storeParam_frame (v p : Byte) (f : Param) (raw : Int) (s : State) : storeParam v p f raw s = { s with
    voices := (storeParam v p f raw s).voices, err := (storeParam v p f raw s).err
    lastErr := (storeParam v p f raw s).lastErr } := by
  rw [storeParam, reportClamp_eq _ (paramLo_le_paramHi s.cfg f)]
  rfl

/-- A store records CFG_CLAMP exactly when the value lies outside the range (46_control_commands.md R213). -/
theorem storeParam_record (v p : Byte) (f : Param) (raw : Int) (s : State) :
    if raw < paramLo f ∨ (paramHi s.cfg f : Int) < raw then
      (storeParam v p f raw s).err = s.err ||| 1 ∧
        (storeParam v p f raw s).lastErr = (0x01 : Byte) ++ p ++ v ++ (1 : Byte)
    else (storeParam v p f raw s).err = s.err ∧ (storeParam v p f raw s).lastErr = s.lastErr := by
  rw [storeParam_err, storeParam_lastErr]
  simp only [clamped_iff raw (paramLo_le_paramHi s.cfg f)]
  split
  · exact ⟨rfl, rfl⟩
  · exact ⟨rfl, rfl⟩

theorem natCast_clampRaw (raw : Int) {lo hi : Nat} (h : lo ≤ hi) :
    (clampRaw raw lo hi : Int) = max (lo : Int) (min raw hi) := by
  rw [clampRaw_eq_max_min raw h]
  omega

/-- Settles O17: the row's field is the one its id names, with the row's bounds. -/
theorem setpStoresClampedValue : Obligations.SetpStoresClampedValue := by
  refine ⟨fun s v val r hs hv hr => ?_, fun c p hc => ?_,
    fun _ _ _ val h => exec_setp_of_missing (namedParam_eq_none h) val, malformedRejected 0x01⟩
  · obtain ⟨-, -, ⟨-, bands⟩, -⟩ := hs.1
    rw [rangeTable_eq] at hr
    obtain ⟨f, hf, rfl⟩ := List.mem_map.mp hr
    have stored (g : Param) := getParam_storeParam hs hv hf v.toNat g (idOfParam f) (rawOf val)
    have voice := voice_storeParam s v.toNat v (idOfParam f) f (rawOf val)
    rw [if_pos ⟨rfl, hs.2.1 ▸ hv⟩] at voice
    refine ⟨_, exec_setp_of_named (namedParam_eq_some hv (paramOfId_idOfParam bands hf)) val, ?_, fun g hg => ?_,
      by rw [voice], by rw [voice], by rw [voice], fun u hu => ?_, storeParam_record .., storeParam_frame ..⟩
    · exact (congrArg Nat.cast ((stored f).trans (if_pos ⟨rfl, rfl⟩))).trans
        (natCast_clampRaw _ (paramLo_le_paramHi ..))
    · exact (stored g).trans (if_neg fun hit => hg hit.2)
    · rw [storeParam_voices, List.getElem?_modify_ne _ _ hu.symm]
  · obtain ⟨-, -, ⟨-, bands⟩, -⟩ := hc
    exact paramOfId_eq_none_iff_rangeTable bands p

/-- What a cell reads as after one was written. -/
theorem gridCell_writeCell {s : State} {v i : Nat} (hv : v < s.voices.length) (hi : i < 32) (b : Bool) (u k : Nat) :
    (writeCell v i b s).gridCell u k = if u = v ∧ k = i then b else s.gridCell u k := by
  split
  · next hit =>
    obtain ⟨rfl, rfl⟩ := hit
    simp [State.gridCell, voice_writeCell, hv, hi]
  · next miss => exact gridCell_writeCell_other s u v b fun hu hk => miss ⟨hu, hk⟩

/-- Settles O19: by whether the voice and the step exist; the write is seen in its cell alone. -/
theorem setsStoresCell : Obligations.SetsStoresCell := by
  refine ⟨fun s v i b hs hv hi => ?_, fun s v i b h => exec_sets_of_missing (cellExists_eq_false h) b,
    malformedRejected 0x02⟩
  obtain ⟨-, len, -⟩ := hs
  have cell := gridCell_writeCell (len ▸ hv) hi b v.toNat
  refine ⟨_, exec_sets_of_exists ((cellExists_iff s v i).mpr ⟨hv, hi⟩) b, ?_, fun k hk => ?_, params_writeCell ..,
    by rw [voice_writeCell], by rw [voice_writeCell], fun u hu => ?_, rfl⟩
  · rw [cell, if_pos ⟨rfl, rfl⟩]
  · rw [cell, if_neg fun hit => hk hit.2]
  · rw [writeCell_voices, List.getElem?_modify_ne _ _ hu.symm]

/-- A SETP of another id leaves a field as it was, in every voice. -/
theorem getParam_exec_setp_other {s t : State} {x p : Byte} {val : Word} {f : Param}
    (run : exec (.setp x p val) s = .next t) (hp : paramOfId s.cfg p ≠ some f) (v : Nat) :
    getParam f (t.params v) = getParam f (s.params v) := by
  cases named : namedParam s x p with
  | none =>
    rw [exec_setp_of_missing named] at run
    cases run
    rfl
  | some g =>
    rw [exec_setp_of_named named] at run
    cases run
    have other : f ≠ g := by
      rintro rfl
      simp only [namedParam, Option.ite_none_right_eq_some] at named
      exact hp named.2
    exact getParam_storeParam_other other ..

/-- A turn that is neither a reset nor a SETP of the field leaves it as it was (10_state.md R24). -/
theorem getParam_runTurn {s t : State} {a : Turn} (run : runTurn a s = .next t) (hr : a ≠ .reset) {v p : Byte}
    {f : Param} (hp : paramOfId s.cfg p = some f) (other : ¬ ∃ y, RunsCommand a s (.setp v p y)) :
    getParam f (t.params v.toNat) = getParam f (s.params v.toNat) := by
  have effect := (runTurn_effect run).voiceEffect hr v.toNat
  rcases effect.params_cases with same | ⟨x, q, y, hx, rfl, w, rest, port, decoded⟩
  · exact congrArg (getParam f) same
  · obtain rfl := BitVec.eq_of_toNat_eq hx
    refine getParam_exec_setp_other ((commandStep_ok port decoded).symm.trans run)
      (fun hq => other ⟨y, rfl, w, rest, port, ?_⟩) _
    obtain rfl : q = p := (idOfParam_paramOfId hq).symm.trans (idOfParam_paramOfId hp)
    exact decoded

/-- The machine has the parameters `c`, and field `f` of voice `v` reads as `n`. -/
def FieldHolds (c : Config) (v : Nat) (f : Param) (n : Nat) (s : State) : Prop :=
  s.cfg = c ∧ getParam f (s.params v) = n

/-- Settles O18: the SETP leaves the clamped value in the field, every turn that comes between keeps it there, and the
GETP answers it. -/
theorem setpReadsBack : Obligations.SetpReadsBack := by
  intro s t u v p val f turns hs hv hp stored run
  rw [exec_setp_of_named (namedParam_eq_some hv hp)] at stored
  cases stored
  have atSetp : FieldHolds s.cfg v.toNat f (clampRaw (rawOf val) (paramLo f) (paramHi s.cfg f))
      (storeParam v p f (rawOf val) s) :=
    ⟨storeParam_cfg .., (getParam_storeParam hs hv (mem_allParams_of_paramOfId hp) ..).trans (if_pos ⟨rfl, rfl⟩)⟩
  obtain ⟨cfg, holds⟩ := run.preserves (P := FieldHolds s.cfg v.toNat f _)
    (fun ⟨hr, other⟩ turn ⟨cfg, holds⟩ => ⟨((runTurn_effect turn).registerWrites hr).cfg.trans cfg,
      (getParam_runTurn turn hr (cfg ▸ hp) other).trans holds⟩) atSetp
  have named : namedParam u v p = some f := namedParam_eq_some (cfg ▸ hv) (cfg ▸ hp)
  refine ⟨_, exec_getp_of_named named, ?_⟩
  rw [respond_responses, holds, ← BitVec.ofInt_natCast, natCast_clampRaw _ (paramLo_le_paramHi ..)]
  rfl

end Sys2Proof.Machine
end

section
/-! PROOFS. Save and load (46_control_commands.md R232): a place is what one command of either reads or writes. -/

namespace Sys2Proof.Machine
open Sys2Proof

/-- A field or a cell of a voice: what a save reads and a load writes with one command. -/
inductive Place where
  | field (v : Nat) (f : Param)
  | cell (v k : Nat)
  deriving DecidableEq

/-- What stands in the place, a cell as 0 or 1. -/
def Place.read (s : State) : Place → Nat
  | .field v f => getParam f (s.params v)
  | .cell v k  => (s.gridCell v k).toNat

/-- The machine has the place. -/
def Place.In (c : Config) : Place → Prop
  | .field v f => v < c.numVoices ∧ f ∈ allParams c
  | .cell v k  => v < c.numVoices ∧ k < 32

/-- The save's command for the place. -/
def Place.save : Place → Instr
  | .field v f => .getp (BitVec.ofNat 8 v) (idOfParam f)
  | .cell v k  => .gets (BitVec.ofNat 8 v) (BitVec.ofNat 8 k)

/-- The load's command for the place, from a document of `s`. -/
def Place.load (s : State) : Place → Instr
  | .field v f => .setp (BitVec.ofNat 8 v) (idOfParam f) (rawField (getParam f (s.params v)))
  | .cell v k  => .sets (BitVec.ofNat 8 v) (BitVec.ofNat 8 k) (s.gridCell v k)

/-- The fields of a voice, in id order. -/
def fieldPlaces (c : Config) (v : Nat) : List Place := (allParams c).map (.field v)

/-- The cells of a voice, in index order. -/
def cellPlaces (v : Nat) : List Place := (List.range 32).map (.cell v)

/-- The places in a save's order: voice by voice, its fields before its cells (log entry 24). -/
def savePlaces (c : Config) : List Place := (List.range c.numVoices).flatMap fun v => fieldPlaces c v ++ cellPlaces v

/-- The places in a load's order: every field before any cell (log entry 24). -/
def loadPlaces (c : Config) : List Place :=
  (List.range c.numVoices).flatMap (fieldPlaces c) ++ (List.range c.numVoices).flatMap cellPlaces

theorem mem_savePlaces {c : Config} {q : Place} : q ∈ savePlaces c ↔ q.In c := by
  cases q <;> simp [savePlaces, fieldPlaces, cellPlaces, Place.In, and_comm, and_left_comm]

theorem mem_loadPlaces {c : Config} {q : Place} : q ∈ loadPlaces c ↔ q.In c := by
  cases q <;> simp [loadPlaces, fieldPlaces, cellPlaces, Place.In, and_comm, and_left_comm]

/-! The save -/

theorem saveVoice_eq (c : Config) (v : Nat) : saveVoice c v = (fieldPlaces c v ++ cellPlaces v).map Place.save := by
  simp [saveVoice, fieldPlaces, cellPlaces, Place.save, Function.comp_def, stepCount]

theorem saveCommands_eq (c : Config) : saveCommands c = (savePlaces c).map Place.save := by
  rw [saveCommands, savePlaces, List.map_flatMap, funext (saveVoice_eq c)]

/-- The answer to the save's command for the place. -/
def Place.answer (s : State) (q : Place) : Word := BitVec.ofNat 32 (q.read s)

theorem savedWords_eq (s : State) (v : Nat) :
    savedWords s v = (fieldPlaces s.cfg v ++ cellPlaces v).map (Place.answer s) := by
  simp [savedWords, fieldPlaces, cellPlaces, Place.answer, Place.read, Function.comp_def, stepCount]

theorem flatMap_savedWords (s : State) :
    (List.range s.cfg.numVoices).flatMap (savedWords s) = (savePlaces s.cfg).map (Place.answer s) := by
  rw [savePlaces, List.map_flatMap, funext (savedWords_eq s)]

/-- The places of an existing voice exist. -/
theorem Place.in_of_mem_voice {c : Config} {v : Nat} (hv : v < c.numVoices) {q : Place}
    (hq : q ∈ fieldPlaces c v ++ cellPlaces v) : q.In c :=
  mem_savePlaces.mp (List.mem_flatMap.mpr ⟨v, List.mem_range.mpr hv, hq⟩)

/-- The number of a byte that holds an existing voice. -/
theorem toNat_ofNat_voice {c : Config} (hc : c.Legal) {v : Nat} (hv : v < c.numVoices) :
    (BitVec.ofNat 8 v).toNat = v := by
  obtain ⟨⟨-, voices⟩, -⟩ := hc
  rw [BitVec.toNat_ofNat]
  omega

theorem toNat_ofNat_step {k : Nat} (hk : k < 32) : (BitVec.ofNat 8 k).toNat = k := by
  rw [BitVec.toNat_ofNat]
  omega

theorem namedParam_field {s : State} (hc : s.cfg.Legal) {v : Nat} (hv : v < s.cfg.numVoices) {f : Param}
    (hf : f ∈ allParams s.cfg) : namedParam s (BitVec.ofNat 8 v) (idOfParam f) = some f := by
  refine namedParam_eq_some (by rwa [toNat_ofNat_voice hc hv]) ?_
  obtain ⟨-, -, ⟨-, bands⟩, -⟩ := hc
  exact paramOfId_idOfParam bands hf

theorem cellExists_cell {s : State} (hc : s.cfg.Legal) {v k : Nat} (hv : v < s.cfg.numVoices) (hk : k < 32) :
    cellExists s (BitVec.ofNat 8 v) (BitVec.ofNat 8 k) = true := by
  rw [cellExists_iff, toNat_ofNat_voice hc hv, toNat_ofNat_step hk]
  exact ⟨hv, hk⟩

/-- The save's command answers what stands in its place. -/
theorem exec_save {s : State} (hc : s.cfg.Legal) {q : Place} (hq : q.In s.cfg) :
    exec q.save s = .next (respond (q.answer s) s) := by
  cases q with
  | field v f =>
    obtain ⟨hv, hf⟩ := hq
    rw [Place.save, exec_getp_of_named (namedParam_field hc hv hf), toNat_ofNat_voice hc hv]
    rfl
  | cell v k =>
    obtain ⟨hv, hk⟩ := hq
    rw [Place.save, exec_gets_of_exists (cellExists_cell hc hv hk), toNat_ofNat_voice hc hv, toNat_ofNat_step hk]
    rfl

/-- Answers do not change what stands in a place. -/
theorem Place.answer_respond (w : Word) (s : State) : Place.answer (respond w s) = Place.answer s :=
  funext fun q => by cases q <;> rfl

/-- A list of the save's commands answers what stands in their places, in order, and changes nothing else. -/
theorem execAll_save {qs : List Place} {s : State} (hc : s.cfg.Legal) (hq : ∀ q ∈ qs, q.In s.cfg) :
    execAll (qs.map Place.save) s =
      .next { s with responses := s.responses ++ qs.map (Place.answer s) } := by
  induction qs generalizing s with
  | nil => simp [execAll]
  | cons q qs ih =>
    obtain ⟨first, later⟩ := List.forall_mem_cons.mp hq
    rw [List.map_cons, execAll, exec_save hc first]
    have rest := ih (s := respond (q.answer s) s) hc later
    rw [Place.answer_respond] at rest
    simpa [respond] using rest

/-- A field of legal parameters lies in its range, an EQ gain too (10_state.md R26). -/
theorem getParam_mem {c : Config} {r : VoiceParams} (h : LegalParams c r) {f : Param} (hf : f ∈ allParams c) :
    paramLo f ≤ getParam f r ∧ getParam f r ≤ paramHi c f := by
  obtain ⟨scalars, bands, gains⟩ := h
  cases f with
  | eqGain k =>
    have hk : k < r.eqGain.length := (mem_allParams.mp hf k rfl).trans_eq bands.symm
    rw [getParam, List.getD_eq_getElem _ 0 hk]
    exact ⟨Nat.zero_le _, gains _ (List.getElem_mem hk)⟩
  | _ => exact scalars _ (by decide)

theorem paramHi_le {c : Config} (hc : c.Legal) (f : Param) : paramHi c f ≤ 1000000000 := by
  obtain ⟨-, -, -, -, ⟨-, gainMax⟩, -⟩ := hc
  cases f with
  | eqGain k => exact gainMax
  | _ => simp [paramHi, stepCount]

/-- A legal field fits a response word, and the value of a SETP. -/
theorem getParam_lt {s : State} (hs : s.Inv) (v : Nat) {f : Param} (hf : f ∈ allParams s.cfg) :
    getParam f (s.params v) < 2 ^ 31 :=
  ((getParam_mem (voice_legal hs v).1 hf).2.trans (paramHi_le hs.1 f)).trans_lt (by decide)

theorem Place.toNat_answer {s : State} (hs : s.Inv) {q : Place} (hq : q.In s.cfg) : (q.answer s).toNat = q.read s := by
  refine (BitVec.toNat_ofNat ..).trans (Nat.mod_eq_of_lt ?_)
  cases q with
  | field v f => exact (getParam_lt hs v hq.2).trans (by decide)
  | cell v k => exact (Bool.toNat_lt _).trans (by decide)

theorem savedWords_toNat {s : State} (hs : s.Inv) {v : Nat} (hv : v < s.cfg.numVoices) :
    (savedWords s v).map BitVec.toNat = (allParams s.cfg).map (fun f => getParam f (s.params v)) ++
      (List.range 32).map fun k => (s.gridCell v k).toNat := by
  have read : (savedWords s v).map BitVec.toNat = (fieldPlaces s.cfg v ++ cellPlaces v).map (Place.read s) := by
    rw [savedWords_eq, List.map_map]
    exact List.map_congr_left fun q hq => Place.toNat_answer hs (Place.in_of_mem_voice hv hq)
  simpa [fieldPlaces, cellPlaces, Function.comp_def, Place.read] using read

/-! The load -/

theorem indexField_of_lt {n : Nat} (h : n < 256) : indexField n = some (BitVec.ofNat 8 n) := by
  simp [indexField, h]

theorem idField_of_mem {c : Config} (hc : c.eqBands ≤ 32) {f : Param} (hf : f ∈ allParams c) :
    idField f = some (idOfParam f) := by
  cases f with
  | eqGain k =>
    have := mem_allParams.mp hf k rfl
    exact indexField_of_lt (by omega)
  | _ => rfl

theorem mapIdx_map_range {α β : Type} (f : Nat → α → β) (g : Nat → α) (n : Nat) :
    ((List.range n).map g).mapIdx f = (List.range n).map fun v => f v (g v) := by
  apply List.ext_getElem
  · simp
  · intro k _ _
    simp

/-- The document's voice loads by one SETP per field (46_control_commands.md R232). -/
theorem loadVoice_document {s : State} (hc : s.cfg.Legal) {v : Nat} (hv : v < s.cfg.numVoices) :
    loadVoice v ((allParams s.cfg).map fun f => (some f, (getParam f (s.params v) : Int))) =
      (fieldPlaces s.cfg v).map (Place.load s) := by
  obtain ⟨⟨-, voices⟩, -, ⟨-, bands⟩, -⟩ := hc
  rw [loadVoice, List.filterMap_map, fieldPlaces, List.map_map, ← List.filterMap_eq_map]
  refine List.filterMap_congr fun f hf => ?_
  simp [indexField_of_lt (show v < 256 by omega), idField_of_mem bands hf, Place.load]

/-- The document's row loads by one SETS per cell (46_control_commands.md R232). -/
theorem loadRow_document {s : State} (hc : s.cfg.Legal) {v : Nat} (hv : v < s.cfg.numVoices) :
    loadRow v ((List.range stepCount).map fun k => some (s.gridCell v k)) = (cellPlaces v).map (Place.load s) := by
  obtain ⟨⟨-, voices⟩, -⟩ := hc
  rw [loadRow, mapIdx_map_range, List.filterMap_map, cellPlaces, List.map_map, ← List.filterMap_eq_map]
  refine List.filterMap_congr fun k hk => ?_
  have hk : k < 32 := List.mem_range.mp hk
  simp [indexField_of_lt (show v < 256 by omega), indexField_of_lt (show k < 256 by omega), Place.load]

/-- The commands of a load of a legal state's document: every field of every voice, then every cell. -/
theorem loadCommands_documentOf {s : State} (hc : s.cfg.Legal) :
    loadCommands (documentOf s) = (loadPlaces s.cfg).map (Place.load s) := by
  simp only [loadCommands, documentOf, Option.getD_some, mapIdx_map_range]
  rw [List.map_congr_left fun v hv => loadVoice_document hc (List.mem_range.mp hv),
    List.map_congr_left fun v hv => loadRow_document hc (List.mem_range.mp hv)]
  simp [loadPlaces, List.flatMap, List.map_flatten, Function.comp_def]

/-- A raw value of the field's range is what SETP reads back from the field (30_encoding.md R82). -/
theorem rawOf_rawField {n : Nat} (h : n < 2 ^ 31) : rawOf (rawField n) = n := by
  rw [rawField, if_neg (by omega), if_neg (by omega)]
  exact BitVec.toInt_ofInt_eq_self (by decide) (by omega) (by omega)

/-- A legal value is loaded as it is, by a SETP that does not clamp it. -/
theorem clampRaw_rawField {s : State} (hs : s.Inv) (v : Nat) {f : Param} (hf : f ∈ allParams s.cfg) :
    clampRaw (rawOf (rawField (getParam f (s.params v)))) (paramLo f) (paramHi s.cfg f) = getParam f (s.params v) := by
  obtain ⟨lo, hi⟩ := getParam_mem (voice_legal hs v).1 hf
  rw [rawOf_rawField (getParam_lt hs v hf)]
  exact clampRaw_of_mem lo hi

/-- A well-formed command keeps the legal states, as the turn that runs its word does. -/
theorem exec_inv {i : Instr} (hi : i.WellFormed) {s t : State} (run : exec i s = .next t) (hs : s.Inv) : t.Inv := by
  obtain ⟨u, run', effect⟩ := exec_effect i s
  obtain rfl : t = u := Host.Outcome.next.inj (run.symm.trans run')
  exact (TurnEffect.ran (s := { s with commandIn := encode i :: s.commandIn }) rfl (decode_encode hi) effect).inv hs

theorem gridCell_storeParam (s : State) (u k : Nat) (v p : Byte) (f : Param) (raw : Int) :
    (storeParam v p f raw s).gridCell u k = s.gridCell u k := by
  unfold State.gridCell
  rw [voice_storeParam]
  split
  · next hit => rw [hit.1]
  · rfl

theorem Place.read_storeParam {s : State} (hs : s.Inv) {v : Byte} (hv : v.toNat < s.cfg.numVoices) {f : Param}
    (hf : f ∈ allParams s.cfg) (p : Byte) (raw : Int) (q : Place) :
    q.read (storeParam v p f raw s) =
      if q = .field v.toNat f then clampRaw raw (paramLo f) (paramHi s.cfg f) else q.read s := by
  cases q with
  | field u g => simpa [Place.read] using getParam_storeParam hs hv hf u g p raw
  | cell u k => simp [Place.read, gridCell_storeParam]

theorem Place.read_writeCell {s : State} {v i : Nat} (hv : v < s.voices.length) (hi : i < 32) (b : Bool) (q : Place) :
    q.read (writeCell v i b s) = if q = .cell v i then b.toNat else q.read s := by
  cases q with
  | field u g => simp [Place.read]
  | cell u k => simpa [Place.read, apply_ite Bool.toNat] using congrArg Bool.toNat (gridCell_writeCell hv hi b u k)

/-- What a load's command leaves: what stands in its place is what stood there in the saved state, and every other place
reads as before. -/
theorem exec_load {s t : State} (hs : s.Inv) (ht : t.Inv) (cfg : t.cfg = s.cfg) {q : Place} (hq : q.In s.cfg) :
    ∃ u, exec (q.load s) t = .next u ∧ u.Inv ∧ u.cfg = s.cfg ∧
      ∀ r : Place, r.read u = if r = q then q.read s else r.read t := by
  obtain ⟨u, run, ucfg, reads⟩ : ∃ u, exec (q.load s) t = .next u ∧ u.cfg = t.cfg ∧
      ∀ r : Place, r.read u = if r = q then q.read s else r.read t := by
    rw [← cfg] at hq
    cases q with
    | field v f =>
      obtain ⟨hv, hf⟩ := hq
      have byte := toNat_ofNat_voice ht.1 hv
      refine ⟨_, exec_setp_of_named (namedParam_field ht.1 hv hf) _, storeParam_cfg .., fun r => ?_⟩
      rw [Place.read_storeParam ht (byte.trans_lt hv) hf, byte, cfg, clampRaw_rawField hs v (cfg ▸ hf)]
      rfl
    | cell v k =>
      obtain ⟨hv, hk⟩ := hq
      refine ⟨_, exec_sets_of_exists (cellExists_cell ht.1 hv hk) _, rfl, fun r => ?_⟩
      rw [toNat_ofNat_voice ht.1 hv, toNat_ofNat_step hk, Place.read_writeCell (ht.2.1 ▸ hv) hk]
      rfl
  exact ⟨u, run, exec_inv (by cases q <;> rfl) run ht, ucfg.trans cfg, reads⟩

/-- A load's commands leave in their places what stood there in the saved state, and every other place as before. -/
theorem execAll_load {s t : State} (hs : s.Inv) (ht : t.Inv) (cfg : t.cfg = s.cfg) {qs : List Place}
    (hq : ∀ q ∈ qs, q.In s.cfg) :
    ∃ u, execAll (qs.map (Place.load s)) t = .next u ∧ u.Inv ∧ u.cfg = s.cfg ∧
      ∀ r : Place, r.read u = if r ∈ qs then r.read s else r.read t := by
  induction qs generalizing t with
  | nil => exact ⟨t, rfl, ht, cfg, fun r => by simp⟩
  | cons q qs ih =>
    obtain ⟨first, later⟩ := List.forall_mem_cons.mp hq
    obtain ⟨u, run, hu, ucfg, reads⟩ := exec_load hs ht cfg first
    obtain ⟨w, run', hw, wcfg, reads'⟩ := ih hu ucfg later
    refine ⟨w, by rw [List.map_cons, execAll, run]; exact run', hw, wcfg, fun r => ?_⟩
    rw [reads', reads]
    by_cases hr : r = q
    · simp [hr]
    · simp [hr]

/-- Legal parameters are their fields (10_state.md R26). -/
theorem params_ext {c : Config} {r r' : VoiceParams} (h : LegalParams c r) (h' : LegalParams c r')
    (fields : ∀ f ∈ allParams c, getParam f r = getParam f r') : r = r' := by
  obtain ⟨-, bands, -⟩ := h
  obtain ⟨-, bands', -⟩ := h'
  have scalars : r.toVoiceScalars = r'.toVoiceScalars := by
    have each : ∀ f ∈ scalarParams, getParam f r = getParam f r' := fun f hf =>
      fields f (List.mem_append_left _ hf)
    rcases r with ⟨⟨⟩, _⟩
    rcases r' with ⟨⟨⟩, _⟩
    simpa [scalarParams, getParam] using each
  have gains : r.eqGain = r'.eqGain := by
    refine List.ext_getElem (bands.trans bands'.symm) fun k hk hk' => ?_
    simpa [getParam, hk, hk'] using fields (.eqGain k) (mem_allParams.mpr fun j hj => by cases hj; omega)
  cases r
  cases r'
  exact congrArg₂ VoiceParams.mk scalars gains

theorem voice_grid_ext {s t : State} {v : Nat} (cells : ∀ k < 32, s.gridCell v k = t.gridCell v k) :
    (s.voice v).grid = (t.voice v).grid := by
  apply Vector.ext
  intro k hk
  simpa [State.gridCell, hk] using cells k hk

/-- Settles O60: a save asks for every place and a load writes every place, each with a command of its own. -/
theorem loadReproducesTheSavedState : Obligations.LoadReproducesTheSavedState := by
  refine ⟨fun s hs => ⟨?_, fun v hv => ⟨?_, savedWords_toNat hs hv⟩⟩, fun s t hs ht cfg => ?_⟩
  · rw [saveCommands_eq, flatMap_savedWords]
    exact execAll_save hs.1 fun q hq => mem_savePlaces.mp hq
  · rw [saveVoice_eq, savedWords_eq]
    exact execAll_save hs.1 fun q hq => Place.in_of_mem_voice hv hq
  · obtain ⟨u, run, hu, ucfg, reads⟩ := execAll_load hs ht cfg.symm fun q hq => mem_loadPlaces.mp hq
    have restored (q : Place) (hq : q.In s.cfg) : q.read u = q.read s :=
      (reads q).trans (if_pos (mem_loadPlaces.mpr hq))
    refine ⟨u, by rw [loadCommands_documentOf hs.1]; exact run, fun v hv => ⟨?_, ?_⟩⟩
    · have legal := (voice_legal hu v).1
      rw [ucfg] at legal
      exact params_ext legal (voice_legal hs v).1 fun f hf => restored (.field v f) ⟨hv, hf⟩
    · exact voice_grid_ext fun k hk =>
        Function.LeftInverse.injective Bool.ofNat_toNat (restored (.cell v k) ⟨hv, hk⟩)

end Sys2Proof.Machine
end

section
/-! PROOFS. The error model (60_exceptions.md): what a missed address leaves, that no step stops the block, and the
record a tick leaves of its overruns. -/

namespace Sys2Proof.Machine
open Sys2Proof

/-- Settles O14: each command by the lookup that misses. -/
theorem missingIndicesRaiseBadAddr : Obligations.MissingIndicesRaiseBadAddr := by
  refine ⟨fun s v p h => ?_, fun s v i h => ?_, fun s i h => ?_⟩
  · have missing := (namedParam_eq_none_iff s v p).mpr h
    exact ⟨exec_setp_of_missing missing, exec_getp_of_missing missing⟩
  · have missing := cellExists_eq_false h
    exact ⟨exec_sets_of_missing missing, exec_gets_of_missing missing⟩
  · exact exec_getstat_of_unlisted ((readStatus_eq_none_iff s i).mpr h)

/-- A word is executed or rejected, and either leaves a state (30_encoding.md R85). -/
theorem exists_executeWord (w : CommandWord) (s : State) : ∃ t, executeWord w s = .next t := by
  cases decoded : decode w with
  | error e => exact ⟨_, executeWord_error decoded s⟩
  | ok i =>
    obtain ⟨t, run, -⟩ := exec_effect i s
    exact ⟨t, (executeWord_ok decoded s).trans run⟩

theorem exists_commandStep (s : State) : ∃ t, commandStep s = .next t := by
  cases port : s.commandIn with
  | nil => exact ⟨s, commandStep_nil port⟩
  | cons w rest => rw [commandStep_cons port]; exact exists_executeWord w _

/-- The host's turn runs or rejects its word; every other turn is an update of the state (60_exceptions.md R240). -/
theorem exists_runTurn (a : Turn) (s : State) : ∃ t, runTurn a s = .next t := by
  cases a with
  | command => exact exists_commandStep s
  | _ => exact ⟨_, rfl⟩

/-- Settles O32: a step is one turn, or none. -/
theorem blockNeverStops : Obligations.BlockNeverStops := by
  intro s
  rcases step_cases (s := s) rfl with ⟨-, waits⟩ | ⟨a, u, -, run⟩
  · exact ⟨s, waits⟩
  · obtain ⟨t, next⟩ := exists_runTurn a u
    exact ⟨t, run.symm.trans next⟩

theorem getLast?_of_greatest {l : List Nat} (ascending : l.Pairwise (· ≤ ·)) {v : Nat} (mem : v ∈ l)
    (greatest : ∀ u ∈ l, u ≤ v) : l.getLast? = some v := by
  rw [List.getLast?_eq_some_getLast (List.ne_nil_of_mem mem)]
  exact congrArg some ((greatest _ (List.getLast_mem _)).antisymm (ascending.rel_getLast mem))

/-- The voices whose triggers the tick drops, in the ascending order of their parts of it (60_exceptions.md R251). -/
def overrunVoices (s : State) : List Nat := (List.range s.cfg.numVoices).filter (tickOverruns s s.gstep)

theorem overrunVoices_ascending (s : State) : (overrunVoices s).Pairwise (· ≤ ·) :=
  List.pairwise_le_range.filter _

/-- In a legal state a voice overruns when it is unmuted, its cell is active and its last render still runs (R117). -/
theorem mem_overrunVoices {s : State} (h : s.Inv) {v : Nat} : v ∈ overrunVoices s ↔
    v < s.cfg.numVoices ∧ (s.params v).mute = 0 ∧ s.gridCell v (stepIndex s v s.gstep) = true ∧ s.busy v = true := by
  simp [overrunVoices, tickOverruns, tickTriggers_of_inv h, and_assoc]

/-- What a tick leaves in ERR and LAST_ERR: the record of the last voice that overran (R247, R251). -/
theorem tick_errors (s : State) : ((tick s).err, (tick s).lastErr) =
    match (overrunVoices s).getLast? with
    | none   => (s.err, s.lastErr)
    | some v => (setErrFlag .overrun s.err, lastErrWord .overrun (BitVec.ofNat 8 v) (stepDetail s.gstep)) :=
  foldl_tickVoice_errors s.gstep _ s List.nodup_range

/-- Settles O39: the voices overrun in ascending order, so the last to record is the highest-numbered. -/
theorem tickRecordsOverruns : Obligations.TickRecordsOverruns := by
  intro s inv running
  have errors := tick_errors s
  refine ⟨tick s, by simp [runTurn, clockStep, running], rfl, fun quiet => ?_, fun v dropped highest => ?_⟩
  · have empty : overrunVoices s = [] :=
      List.eq_nil_iff_forall_not_mem.mpr fun v hv => quiet v ((mem_overrunVoices inv).mp hv)
    rw [empty] at errors
    exact Prod.mk.inj errors
  · have last : (overrunVoices s).getLast? = some v :=
      getLast?_of_greatest (overrunVoices_ascending s) ((mem_overrunVoices inv).mpr dropped)
        fun u hu => highest u ((mem_overrunVoices inv).mp hu)
    rw [last] at errors
    rw [BitVec.setWidth_eq_extractLsb' (by decide)]
    exact Prod.mk.inj errors

end Sys2Proof.Machine
end

section
/-! PROOFS. The state after reset (70_reset_and_hazards.md R270 to R273). -/

namespace Sys2Proof.Machine
open Sys2Proof

/-- After reset every voice is as R270's table has it (beyond the list too: log entry 19). -/
@[simp] theorem voice_resetWith (c : Config) (r : Bool) (v : Nat) : (State.resetWith c r).voice v = Voice.reset c := by
  simp only [State.voice, State.resetWith, List.getD_eq_getElem?_getD, List.getElem?_replicate]
  split <;> rfl

/-- No render is in flight after reset (R271). -/
theorem busy_resetWith (c : Config) (r : Bool) (v : Nat) : (State.resetWith c r).busy v = false :=
  busy_eq_false_iff.mpr (by rw [voice_resetWith]; rfl)

theorem busy_resetStep (s : State) (v : Nat) : (resetStep s).busy v = false :=
  busy_resetWith s.cfg s.sinkReady v

/-- Without a word, a running clock and a busy voice nothing is enabled (20_memory.md R68). -/
theorem enabledTurns_eq_nil {s : State} (hp : s.commandIn = []) (hr : s.running = false)
    (hb : ∀ v, v < s.cfg.numVoices → s.busy v = false) : enabledTurns s = [] := by
  have free : busyVoices s = [] := by simpa [busyVoices] using hb
  simp [enabledTurns, hp, hr, free]

/-- Settles O1: the reset step is R270's table, and the default parameters are R27's. -/
theorem resetStepSetsEveryRegister : Obligations.ResetStepSetsEveryRegister :=
  ⟨fun s => ⟨resetStep s, rfl, rfl, rfl, rfl, rfl, rfl, rfl, rfl, rfl, rfl, rfl, rfl, rfl, rfl, rfl, rfl⟩, rfl⟩

/-- Settles O2: after reset the port is empty, the clock stands and every voice is free. -/
theorem resetStateIsLegalAndIdle : Obligations.ResetStateIsLegalAndIdle := by
  refine ⟨fun c r legal => ⟨resetWith_inv legal r, rfl, busy_resetWith c r, ?_, fun w => ?_⟩, fun r v => ?_⟩
  · exact enabledTurns_eq_nil rfl rfl fun v _ => busy_resetWith c r v
  · exact enabledTurns_eq_command (List.cons_ne_nil w []) rfl fun v _ => busy_resetWith c r v
  · rw [State.params, voice_resetWith]; rfl

/-- Settles O43: after reset every voice is free, and a completion of a free voice passes. -/
theorem resetAbandonsRenders : Obligations.ResetAbandonsRenders := fun s =>
  ⟨resetStep s, rfl, rfl, fun v =>
    ⟨busy_resetStep s v, congrArg Host.Outcome.next (renderStep_of_free (busy_resetStep s v))⟩⟩

end Sys2Proof.Machine
end
